-- ==== Sys2Proof/Word.lean ====
section
/-! DEFINITION. The fixed-width words of the block (spec 00_scope.md R12): bytes, 7-bit flag registers,
16-bit timer values, the 24-bit host-operation word (30_encoding.md R120) and the 8-bit device index in it. -/

namespace Sys2Proof

/-- A byte: a register slot, a bus data byte, a holding byte (R12, R73). -/
abbrev Byte := BitVec 8

/-- The stored part of the VIA's IFR and IER, bits 6 to 0 (R36, R37). -/
abbrev Flags7 := BitVec 7

/-- A VIA timer counter or latch (R32, R33). -/
abbrev Count16 := BitVec 16

/-- A host-operation word `HOPW` (R120). -/
abbrev HopWord := BitVec 24

/-- The device index in bits 23 to 16 of a host-operation word (R120). -/
abbrev DevId := BitVec 8

end Sys2Proof
end

