-- ==== Sys2Proof/Config.lean ====
section
/-! DEFINITION. The implementation parameters of the block (spec 00_scope.md R6), their validity (R7), and the
reference instantiation the spec uses for its numbers (95_test_vectors.md Parts 1 and 4). -/

namespace Sys2Proof

/-- The three device kinds (R1). -/
inductive Kind where
  | via
  | acia
  | pia
  deriving DecidableEq, Repr

/-- `WIN[d]`: the size of a device's register window in bytes, fixed by its kind (R6). -/
def Kind.window : Kind → Nat
  | .via => 16
  | .acia => 4
  | .pia => 4

/-- `VIA_TIMER_MODE`: which reading of the timer tick is modelled (R6, R141). `quirk` is normative. -/
inductive TimerMode where
  | quirk
  | wrap
  deriving DecidableEq, Repr

/-- A serial frame shape (R47): after a control write the data bits are 5 to 8 and the stop bits 1 or 2; after
reset both are 0. -/
structure Frame where
  dataBits : Nat
  stopBits : Nat
  parityEn : Bool
  parityEven : Bool
  deriving DecidableEq, Repr

/-- The parameters of one device: `KIND[d]`, `BASE[d]` and, for a VIA, `VIA_PIN_INIT[d]` (R6). The pin levels of
an entry that is no VIA are read by nothing. -/
structure DeviceConfig where
  kind : Kind
  base : Nat
  pinInitA : Byte
  pinInitB : Byte
  deriving DecidableEq, Repr

/-- The parameters of the block (R6). They are fixed before the first host operation and never change. -/
structure Config where
  /-- One entry per device; `NDEV` is their number. -/
  devices : List DeviceConfig
  /-- `CLOCK_HZ`, ticks per second. -/
  clockHz : Nat
  /-- `BAUD_TABLE[0 .. 15]`; an entry may be 0 or negative. -/
  baudTable : Vector Int 16
  /-- `FORMAT_TABLE[0 .. 7]`; `none` is an unrecognised format code. -/
  formatTable : Vector (Option Frame) 8
  /-- `MAX_TICKS`. -/
  maxTicks : Nat
  timerMode : TimerMode
  deriving DecidableEq, Repr

/-- `NDEV` (R6). -/
def Config.ndev (c : Config) : Nat := c.devices.length

/-- `KIND[0 .. NDEV-1]` (R6). -/
def Config.kinds (c : Config) : List Kind := c.devices.map DeviceConfig.kind

/-- The frame shapes `FORMAT_TABLE` may hold: data bits 5 to 8, stop bits 1 or 2 (R6). -/
def Frame.inRange (f : Frame) : Bool :=
  decide (5 ≤ f.dataBits ∧ f.dataBits ≤ 8 ∧ 1 ≤ f.stopBits ∧ f.stopBits ≤ 2)

/-- An entry of `FORMAT_TABLE` that R6 allows: unrecognised, or a frame in range. -/
def formatEntryOk : Option Frame → Bool
  | none => true
  | some f => f.inRange

/-- The windows of two devices share no address (R7). -/
def DeviceConfig.disjoint (a b : DeviceConfig) : Bool :=
  decide (a.base + a.kind.window ≤ b.base ∨ b.base + b.kind.window ≤ a.base)

/-- No two windows of the list overlap (R7). -/
def windowsDisjoint : List DeviceConfig → Bool
  | [] => true
  | a :: rest => rest.all a.disjoint && windowsDisjoint rest

/-- The configurations the block has a behaviour for (R6, R7): 1 to 256 devices, windows that do not overlap,
frames in range, a positive `MAX_TICKS`. DEDUCED (log entry 15). -/
def Config.valid (c : Config) : Bool :=
  decide (1 ≤ c.ndev) && decide (c.ndev ≤ 256) && windowsDisjoint c.devices &&
    c.formatTable.toList.all formatEntryOk && decide (1 ≤ c.maxTicks)

/-- `REFCFG` with the three devices of the spec's programs (95_test_vectors.md Parts 1 and 4): the spec's own
instantiation of the open parameters, used by `State.reset` and by tests. DESIGN CHOICE (log entries 2 and 3): the
spec leaves these parameters open, the bases and the pin levels among them. -/
def Config.reference : Config where
  devices := [⟨.via, 0x0000, 0x00, 0x00⟩, ⟨.acia, 0x0010, 0x00, 0x00⟩, ⟨.pia, 0x0014, 0x00, 0x00⟩]
  clockHz := 1000000
  baudTable := #v[300, 600, 1200, 2400, 4800, 9600, 19200, 38400, 50, 75, 110, 150, 0, -1, 1000000, 2000000]
  formatTable := #v[some ⟨8, 1, false, false⟩, some ⟨7, 1, true, true⟩, some ⟨7, 2, true, false⟩,
    some ⟨8, 2, false, false⟩, some ⟨8, 1, true, true⟩, some ⟨5, 1, false, false⟩, none, none]
  maxTicks := 2147483647
  timerMode := .quirk

end Sys2Proof
end

