-- ==== Sys2Proof/Machine/Devices.lean ====
section
/-! DEFINITION. The registers, latches, counters, flags and line levels of the three device kinds (spec 10_state.md
R30 to R58), the records a save captures (43_signals_persistence.md R301 to R303), and their reset values
(70_reset_and_hazards.md R371). -/

namespace Sys2Proof.Machine

/-- The VIA's registers R30 to R37: exactly the thirteen fields of a saved VIA record (R301). -/
structure ViaRecord where
  ora : Byte
  orb : Byte
  ddra : Byte
  ddrb : Byte
  t1c : Count16
  t1l : Count16
  t2c : Count16
  t2l : Count16
  sr : Byte
  acr : Byte
  pcr : Byte
  ifr : Flags7
  ier : Flags7
  deriving DecidableEq, Repr

/-- A VIA: its registers and the levels now on its port pins, which belong to the outside (R38). -/
structure Via extends ViaRecord where
  paIn : Byte
  pbIn : Byte
  deriving DecidableEq, Repr

/-- The ACIA's registers R40 to R48: exactly the twelve fields of a saved ACIA record (R302); the four of R47 are
the fields of `frame`. -/
structure AciaRecord where
  status : Byte
  command : Byte
  control : Byte
  test : Byte
  txHold : Byte
  rxHold : Byte
  baud : Int
  frame : Frame
  txCount : Int
  deriving DecidableEq, Repr

/-- An ACIA: its registers and whether a sink is attached, which belongs to the host interface (R49). -/
structure Acia extends AciaRecord where
  sinkAttached : Bool
  deriving DecidableEq, Repr

/-- A PIA (R52 to R58); a saved PIA record holds all fourteen fields (R303). -/
structure Pia where
  pa : Byte
  pb : Byte
  ddra : Byte
  ddrb : Byte
  cra : Byte
  crb : Byte
  ca1 : Bool
  ca2 : Bool
  cb1 : Bool
  cb2 : Bool
  irqa : Bool
  irqb : Bool
  ca2Out : Bool
  cb2Out : Bool
  deriving DecidableEq, Repr

/-- A device of one of the three kinds (R26). -/
inductive Device where
  | via (v : Via)
  | acia (a : Acia)
  | pia (p : Pia)
  deriving DecidableEq, Repr

/-- `KIND[d]` as the device itself shows it. -/
def Device.kind : Device → Kind
  | .via _ => .via
  | .acia _ => .acia
  | .pia _ => .pia

/-- A saved record, of one of the three kinds (R300). -/
inductive Record where
  | via (r : ViaRecord)
  | acia (r : AciaRecord)
  | pia (r : Pia)
  deriving DecidableEq, Repr

/-- The kind of device a record is of. -/
def Record.kind : Record → Kind
  | .via _ => .via
  | .acia _ => .acia
  | .pia _ => .pia

/-- The VIA registers after reset (R371). -/
def viaResetRecord : ViaRecord where
  ora := 0x00
  orb := 0x00
  ddra := 0x00
  ddrb := 0x00
  t1c := 0x0000
  t1l := 0x0000
  t2c := 0x0000
  t2l := 0x0000
  sr := 0x00
  acr := 0x00
  pcr := 0x00
  ifr := 0
  ier := 0

/-- The ACIA registers after reset: `TDRE`, `DCD` and `CTS` set, every other field zero or false (R371). -/
def aciaResetRecord : AciaRecord where
  status := 0x0E
  command := 0x00
  control := 0x00
  test := 0x00
  txHold := 0x00
  rxHold := 0x00
  baud := 0
  frame := ⟨0, 0, false, false⟩
  txCount := 0

/-- The PIA after reset (R371). -/
def piaReset : Pia where
  pa := 0x00
  pb := 0x00
  ddra := 0x00
  ddrb := 0x00
  cra := 0x00
  crb := 0x00
  ca1 := false
  ca2 := false
  cb1 := false
  cb2 := false
  irqa := false
  irqb := false
  ca2Out := false
  cb2Out := false

/-- A device at power-on: the reset values, the pin levels `VIA_PIN_INIT[d]`, no sink attached (R372). -/
def devicePowerOn (c : DeviceConfig) : Device :=
  match c.kind with
  | .via => .via { viaResetRecord with paIn := c.pinInitA, pbIn := c.pinInitB }
  | .acia => .acia { aciaResetRecord with sinkAttached := false }
  | .pia => .pia piaReset

end Sys2Proof.Machine
end

