-- ==== Sys2Proof/Machine/Flags.lean ====
section
/-! DEFINITION. The named bits of the status, command, flag and control registers (spec 30_encoding.md R104 to
R108, R111), reading and writing one bit, and the Boolean each device's state implies for the IRQ line
(60_exceptions.md R324 to R326). -/

namespace Sys2Proof.Machine

/-- Write one bit of a word, leaving the others. -/
def writeBit {w : Nat} (x : BitVec w) (i : Nat) (b : Bool) : BitVec w :=
  if b then x ||| (1#w <<< i) else x &&& ~~~(1#w <<< i)

/-! VIA flag and enable bits (R104, R105). -/

/-- Timer 1's bit of IFR and IER. -/
def bitT1 : Nat := 6

/-- Timer 2's bit of IFR and IER. -/
def bitT2 : Nat := 5

/-! ACIA status bits (R106). -/

/-- Receive-full. -/
def bitRDRF : Nat := 0

/-- Transmit-empty. -/
def bitTDRE : Nat := 1

/-- Carrier-detect: set by reset, changed by nothing but a load. -/
def bitDCD : Nat := 2

/-- Clear-to-send: set by reset, changed by nothing but a load. -/
def bitCTS : Nat := 3

/-- Framing error. -/
def bitFE : Nat := 4

/-- Overrun error. -/
def bitOVRN : Nat := 5

/-- Parity error. -/
def bitPE : Nat := 6

/-- IRQ asserted. -/
def bitIRQ : Nat := 7

/-! ACIA command bits (R107). -/

/-- Receiver enable. -/
def bitRXEN : Nat := 0

/-- DTR: stored only. -/
def bitDTR : Nat := 1

/-- Transmit IRQ enable. -/
def bitTXIE : Nat := 2

/-- Receive IRQ enable. -/
def bitRXIE : Nat := 3

/-- RTS: stored only. -/
def bitRTS : Nat := 4

/-- Transmit enable. -/
def bitTXEN : Nat := 5

/-! PIA control bits (R111). -/

/-- Line-2 mode: 0 input, 1 output; also the gate of the handshake output and direction bit 1. -/
def bitLine2Mode : Nat := 1

/-- Interrupt enable of line 1. -/
def bitLine1Enable : Nat := 4

/-- Interrupt enable of line 2. -/
def bitLine2Enable : Nat := 5

/-! Status and command bits of an ACIA by name. -/

/-- `status.RDRF`: a receive byte is pending (R200). -/
def AciaRecord.rdrf (a : AciaRecord) : Bool := a.status.getLsbD bitRDRF

/-- `status.TDRE`: no transmit byte is pending (R200). -/
def AciaRecord.tdre (a : AciaRecord) : Bool := a.status.getLsbD bitTDRE

/-- `status.IRQ`. -/
def AciaRecord.irq (a : AciaRecord) : Bool := a.status.getLsbD bitIRQ

/-- `command.RXEN`. -/
def AciaRecord.rxen (a : AciaRecord) : Bool := a.command.getLsbD bitRXEN

/-- `command.TXEN`. -/
def AciaRecord.txen (a : AciaRecord) : Bool := a.command.getLsbD bitTXEN

/-- `command.RXIE`. -/
def AciaRecord.rxie (a : AciaRecord) : Bool := a.command.getLsbD bitRXIE

/-- `command.TXIE`. -/
def AciaRecord.txie (a : AciaRecord) : Bool := a.command.getLsbD bitTXIE

/-! The want of each kind. -/

/-- `Want(d)` of a VIA: some flag is set and enabled (R324). -/
def ViaRecord.want (v : ViaRecord) : Bool := (v.ifr &&& v.ier) != 0

/-- `Want(d)` of an ACIA (R325). -/
def AciaRecord.want (a : AciaRecord) : Bool := (a.rxie && a.rdrf) || (a.txie && a.tdre)

/-- `Want(d)` of a PIA (R326). -/
def Pia.want (p : Pia) : Bool := p.irqa || p.irqb

/-- `Want(d)` by the kind of the device (R324 to R326). -/
def Device.want : Device → Bool
  | .via v => v.want
  | .acia a => a.want
  | .pia p => p.want

end Sys2Proof.Machine
end

