-- ==== Sys2Proof/Machine/Operands.lean ====
section
/-! DEFINITION. The operand forms and value computations of the rules: port combine (spec 40_via_timer_port.md
R140), timer tick (R141), the bytes of 16-bit timer values (30_encoding.md R113), the IFR, IER and PIA control
views (R104, R105, R112), the serial rate, frame and tick count (41_acia_serial.md R202, R203), and the handshake
output (42_pia_parallel.md R251). -/

namespace Sys2Proof.Machine

/-- `Combine(latch, pins, ddr)`: the latch bit where the direction is output, else the pin (R140). -/
def combine (latch pins ddr : Byte) : Byte := (latch &&& ddr) ||| (pins &&& ~~~ddr)

/-- Bits 7 to 0 of a 16-bit value (R113). -/
def lowByte (x : Count16) : Byte := x.extractLsb' 0 8

/-- Bits 15 to 8 of a 16-bit value (R113). -/
def highByte (x : Count16) : Byte := x.extractLsb' 8 8

/-- `{x[15:8], v}` (R113). -/
def withLow (x : Count16) (v : Byte) : Count16 := highByte x ++ v

/-- `{v, x[7:0]}` (R113). -/
def withHigh (x : Count16) (v : Byte) : Count16 := v ++ lowByte x

/-- `TimerTick` on one counter and its latch: the new counter, and whether the tick wrapped and so sets the flag,
re-evaluates and reloads (R141). -/
def timerTick (mode : TimerMode) (c l : Count16) : Count16 × Bool :=
  if mode = .quirk ∧ c = 0 then (c, false)
  else if c - 1 = 0xFFFF then (l, true)
  else (c - 1, false)

/-- IFR as read: bit 7 is computed, 1 iff some flag is set and enabled (R104, R155). -/
def ifrView (v : ViaRecord) : Byte := BitVec.ofBool v.want ++ v.ifr

/-- IER as read: bit 7 is always 1 (R105, R156). -/
def ierView (v : ViaRecord) : Byte := 1#1 ++ v.ier

/-- IFR after a write: each 1 in the low 7 bits clears its flag (R171). -/
def ifrAfterWrite (ifr : Flags7) (v : Byte) : Flags7 := ifr &&& ~~~(v.setWidth 7)

/-- IER after a write: bit 7 selects setting or clearing the enables named by the low 7 bits (R172). -/
def ierAfterWrite (ier : Flags7) (v : Byte) : Flags7 :=
  if v.getLsbD 7 then ier ||| v.setWidth 7 else ier &&& ~~~(v.setWidth 7)

/-- The frame of an unrecognised format code: 8 data bits, 1 stop bit, no parity (R110). -/
def fallbackFrame : Frame := ⟨8, 1, false, false⟩

/-- The rate a control byte selects: `BAUD_TABLE[v[3:0]]` (R109). -/
def baudOf (c : Config) (v : Byte) : Int := c.baudTable.get (v.extractLsb' 0 4).toFin

/-- The frame a control byte selects: `FORMAT_TABLE[v[6:4]]`, or the fallback (R110). -/
def frameOf (c : Config) (v : Byte) : Frame :=
  (c.formatTable.get (v.extractLsb' 4 3).toFin).getD fallbackFrame

/-- The number of bits a frame takes: start, data, parity, stop (R203). -/
def framedBits (f : Frame) : Nat := 1 + f.dataBits + (if f.parityEn then 1 else 0) + f.stopBits

/-- `TicksPerByte()`, from the stored rate and frame, in exact integers (R203). -/
def ticksPerByte (c : Config) (a : AciaRecord) : Int :=
  if a.baud ≤ 0 then 1
  else min (c.maxTicks : Int) (max 1 ((c.clockHz : Int) / a.baud) * max 1 (framedBits a.frame : Int))

/-- A PIA control register as read: the flag, stored bits 6 to 2, the levels of line 2 and line 1 (R112). -/
def controlView (irq : Bool) (cr : Byte) (line2 line1 : Bool) : Byte :=
  BitVec.ofBool irq ++ cr.extractLsb' 2 5 ++ BitVec.ofBool line2 ++ BitVec.ofBool line1

/-- The direction register a PIA control write gives: its low 4 bits, zero-extended (R258). -/
def directionOf (v : Byte) : Byte := (v.extractLsb' 0 4).setWidth 8

/-- The handshake output of a side: bit 1 of its control byte and bit 1 of its port byte (R251). -/
def handshake (cr port : Byte) : Bool := cr.getLsbD bitLine2Mode && port.getLsbD 1

end Sys2Proof.Machine
end

