-- ==== Sys2Proof/Syntax.lean ====
section
/-! DEFINITION. The host operations, one constructor per row of spec/opcode_table.json. They play the part that
instructions play in an ISA manual (spec 00_scope.md R2). Every operation names the device `d` it is performed on;
its further operand, where it has one, is the data field of its word (30_encoding.md R121). -/

namespace Sys2Proof

/-- A host operation (R2, R121). Fields of a word that are marked ignored are no operands. -/
inductive Instr where
  /-- `VIA.RD.ORB`, R142. -/
  | viaRdOrb (d : DevId)
  /-- `VIA.RD.ORA`, R143. -/
  | viaRdOra (d : DevId)
  /-- `VIA.RD.DDRB`, R144. -/
  | viaRdDdrb (d : DevId)
  /-- `VIA.RD.DDRA`, R145. -/
  | viaRdDdra (d : DevId)
  /-- `VIA.RD.T1CL`, R146. -/
  | viaRdT1cl (d : DevId)
  /-- `VIA.RD.T1CH`, R147. -/
  | viaRdT1ch (d : DevId)
  /-- `VIA.RD.T1LL`, R148. -/
  | viaRdT1ll (d : DevId)
  /-- `VIA.RD.T1LH`, R149. -/
  | viaRdT1lh (d : DevId)
  /-- `VIA.RD.T2CL`, R150. -/
  | viaRdT2cl (d : DevId)
  /-- `VIA.RD.T2CH`, R151. -/
  | viaRdT2ch (d : DevId)
  /-- `VIA.RD.SR`, R152. -/
  | viaRdSr (d : DevId)
  /-- `VIA.RD.ACR`, R153. -/
  | viaRdAcr (d : DevId)
  /-- `VIA.RD.PCR`, R154. -/
  | viaRdPcr (d : DevId)
  /-- `VIA.RD.IFR`, R155. -/
  | viaRdIfr (d : DevId)
  /-- `VIA.RD.IER`, R156. -/
  | viaRdIer (d : DevId)
  /-- `VIA.RD.ORAX`, R157. -/
  | viaRdOrax (d : DevId)
  /-- `VIA.WR.ORB`, R158. -/
  | viaWrOrb (d : DevId) (v : Byte)
  /-- `VIA.WR.ORA`, R159. -/
  | viaWrOra (d : DevId) (v : Byte)
  /-- `VIA.WR.DDRB`, R160. -/
  | viaWrDdrb (d : DevId) (v : Byte)
  /-- `VIA.WR.DDRA`, R161. -/
  | viaWrDdra (d : DevId) (v : Byte)
  /-- `VIA.WR.T1CL`, R162. -/
  | viaWrT1cl (d : DevId) (v : Byte)
  /-- `VIA.WR.T1CH`, R163. -/
  | viaWrT1ch (d : DevId) (v : Byte)
  /-- `VIA.WR.T1LL`, R164. -/
  | viaWrT1ll (d : DevId) (v : Byte)
  /-- `VIA.WR.T1LH`, R165. -/
  | viaWrT1lh (d : DevId) (v : Byte)
  /-- `VIA.WR.T2CL`, R166. -/
  | viaWrT2cl (d : DevId) (v : Byte)
  /-- `VIA.WR.T2CH`, R167. -/
  | viaWrT2ch (d : DevId) (v : Byte)
  /-- `VIA.WR.SR`, R168. -/
  | viaWrSr (d : DevId) (v : Byte)
  /-- `VIA.WR.ACR`, R169. -/
  | viaWrAcr (d : DevId) (v : Byte)
  /-- `VIA.WR.PCR`, R170. -/
  | viaWrPcr (d : DevId) (v : Byte)
  /-- `VIA.WR.IFR`, R171. -/
  | viaWrIfr (d : DevId) (v : Byte)
  /-- `VIA.WR.IER`, R172. -/
  | viaWrIer (d : DevId) (v : Byte)
  /-- `VIA.WR.ORAX`, R173. -/
  | viaWrOrax (d : DevId) (v : Byte)
  /-- `VIA.STEP`, R175. -/
  | viaStep (d : DevId)
  /-- `VIA.PIN.A`, R176. -/
  | viaPinA (d : DevId) (v : Byte)
  /-- `VIA.PIN.B`, R176. -/
  | viaPinB (d : DevId) (v : Byte)
  /-- `ACIA.RD.DATA`, R204. -/
  | aciaRdData (d : DevId)
  /-- `ACIA.RD.STAT`, R205. -/
  | aciaRdStat (d : DevId)
  /-- `ACIA.RD.CTRL`, R206. -/
  | aciaRdCtrl (d : DevId)
  /-- `ACIA.RD.TEST`, R207. -/
  | aciaRdTest (d : DevId)
  /-- `ACIA.WR.DATA`, R208. -/
  | aciaWrData (d : DevId) (v : Byte)
  /-- `ACIA.WR.CMD`, R209. -/
  | aciaWrCmd (d : DevId) (v : Byte)
  /-- `ACIA.WR.CTRL`, R210. -/
  | aciaWrCtrl (d : DevId) (v : Byte)
  /-- `ACIA.WR.TEST`, R211. -/
  | aciaWrTest (d : DevId) (v : Byte)
  /-- `ACIA.STEP`, R213. -/
  | aciaStep (d : DevId)
  /-- `ACIA.RXB`, R214. -/
  | aciaRxb (d : DevId) (b : Byte)
  /-- `PIA.RD.PB`, R252. -/
  | piaRdPb (d : DevId)
  /-- `PIA.RD.PA`, R253. -/
  | piaRdPa (d : DevId)
  /-- `PIA.RD.CRB`, R254. -/
  | piaRdCrb (d : DevId)
  /-- `PIA.RD.CRA`, R255. -/
  | piaRdCra (d : DevId)
  /-- `PIA.WR.PB`, R256. -/
  | piaWrPb (d : DevId) (v : Byte)
  /-- `PIA.WR.PA`, R257. -/
  | piaWrPa (d : DevId) (v : Byte)
  /-- `PIA.WR.CRB`, R258. -/
  | piaWrCrb (d : DevId) (v : Byte)
  /-- `PIA.WR.CRA`, R259. -/
  | piaWrCra (d : DevId) (v : Byte)
  /-- `PIA.LINE.CA1`, R260. -/
  | piaLineCa1 (d : DevId) (lv : Bool)
  /-- `PIA.LINE.CA2`, R261. -/
  | piaLineCa2 (d : DevId) (lv : Bool)
  /-- `PIA.LINE.CB1`, R262. -/
  | piaLineCb1 (d : DevId) (lv : Bool)
  /-- `PIA.LINE.CB2`, R263. -/
  | piaLineCb2 (d : DevId) (lv : Bool)
  /-- `PIA.STEP`, R264. -/
  | piaStep (d : DevId)
  /-- `ANY.SIG.RESET`, R291. -/
  | anySigReset (d : DevId)
  /-- `ACIA.SIG.NMI`, R292. -/
  | aciaSigNmi (d : DevId)
  /-- `ACIA.SIG.IRQ`, R293. -/
  | aciaSigIrq (d : DevId)
  /-- `ANY.SIG.OTHER`, R294. -/
  | anySigOther (d : DevId)
  /-- `VIA.SIG.NMI`, R294. -/
  | viaSigNmi (d : DevId)
  /-- `VIA.SIG.IRQ`, R294. -/
  | viaSigIrq (d : DevId)
  /-- `PIA.SIG.NMI`, R294. -/
  | piaSigNmi (d : DevId)
  /-- `PIA.SIG.IRQ`, R294. -/
  | piaSigIrq (d : DevId)
  /-- `ANY.SAVE`, R300. -/
  | anySave (d : DevId)
  /-- `VIA.LOAD`, R304. -/
  | viaLoad (d : DevId) (n : Byte)
  /-- `ACIA.LOAD`, R305. -/
  | aciaLoad (d : DevId) (n : Byte)
  /-- `PIA.LOAD`, R306. -/
  | piaLoad (d : DevId) (n : Byte)
  /-- `ACIA.SINK`, R310. -/
  | aciaSink (d : DevId) (a : Bool)
  deriving DecidableEq, Repr

/-- The device a host operation is performed on, the `dev` field of its word (R120). -/
def Instr.dev : Instr → DevId
  | .viaRdOrb d => d
  | .viaRdOra d => d
  | .viaRdDdrb d => d
  | .viaRdDdra d => d
  | .viaRdT1cl d => d
  | .viaRdT1ch d => d
  | .viaRdT1ll d => d
  | .viaRdT1lh d => d
  | .viaRdT2cl d => d
  | .viaRdT2ch d => d
  | .viaRdSr d => d
  | .viaRdAcr d => d
  | .viaRdPcr d => d
  | .viaRdIfr d => d
  | .viaRdIer d => d
  | .viaRdOrax d => d
  | .viaWrOrb d _ => d
  | .viaWrOra d _ => d
  | .viaWrDdrb d _ => d
  | .viaWrDdra d _ => d
  | .viaWrT1cl d _ => d
  | .viaWrT1ch d _ => d
  | .viaWrT1ll d _ => d
  | .viaWrT1lh d _ => d
  | .viaWrT2cl d _ => d
  | .viaWrT2ch d _ => d
  | .viaWrSr d _ => d
  | .viaWrAcr d _ => d
  | .viaWrPcr d _ => d
  | .viaWrIfr d _ => d
  | .viaWrIer d _ => d
  | .viaWrOrax d _ => d
  | .viaStep d => d
  | .viaPinA d _ => d
  | .viaPinB d _ => d
  | .aciaRdData d => d
  | .aciaRdStat d => d
  | .aciaRdCtrl d => d
  | .aciaRdTest d => d
  | .aciaWrData d _ => d
  | .aciaWrCmd d _ => d
  | .aciaWrCtrl d _ => d
  | .aciaWrTest d _ => d
  | .aciaStep d => d
  | .aciaRxb d _ => d
  | .piaRdPb d => d
  | .piaRdPa d => d
  | .piaRdCrb d => d
  | .piaRdCra d => d
  | .piaWrPb d _ => d
  | .piaWrPa d _ => d
  | .piaWrCrb d _ => d
  | .piaWrCra d _ => d
  | .piaLineCa1 d _ => d
  | .piaLineCa2 d _ => d
  | .piaLineCb1 d _ => d
  | .piaLineCb2 d _ => d
  | .piaStep d => d
  | .anySigReset d => d
  | .aciaSigNmi d => d
  | .aciaSigIrq d => d
  | .anySigOther d => d
  | .viaSigNmi d => d
  | .viaSigIrq d => d
  | .piaSigNmi d => d
  | .piaSigIrq d => d
  | .anySave d => d
  | .viaLoad d _ => d
  | .aciaLoad d _ => d
  | .piaLoad d _ => d
  | .aciaSink d _ => d

end Sys2Proof
end

