-- ==== Sys2Proof/WellFormed.lean ====
section
/-! DEFINITION. Well-formedness of a host operation against the device kinds of a configuration (spec
30_encoding.md R122, R123): the device exists, and the operation is one its kind has. -/

namespace Sys2Proof

/-- Why a host-operation word, or an operation no word stands for, is refused (R123). -/
inductive Reject where
  /-- `dev >= NDEV`. -/
  | noSuchDevice
  /-- `kind` 0xA to 0xF. -/
  | reservedKind
  /-- The operation is sent to a device kind that lacks it. -/
  | kindLacksOperation
  /-- `SIG` codes 3 to 0xE. -/
  | reservedSignal
  /-- A must-be-zero bit of `LINE`, `PIN` or `SINK` is set. -/
  | mustBeZero
  deriving DecidableEq, Repr

/-- The `format` column of spec/opcode_table.json: the device kind an operation is for, or any (R122). -/
inductive Format where
  | via
  | acia
  | pia
  | any
  deriving DecidableEq, Repr

/-- Does a device of kind `k` have the operations of this format? (R121, R122) -/
def Format.admits : Format → Kind → Bool
  | .via, .via => true
  | .acia, .acia => true
  | .pia, .pia => true
  | .any, _ => true
  | _, _ => false

/-- The format of an operation's row (spec/opcode_table.json). -/
def Instr.format : Instr → Format
  | .viaRdOrb _ => .via
  | .viaRdOra _ => .via
  | .viaRdDdrb _ => .via
  | .viaRdDdra _ => .via
  | .viaRdT1cl _ => .via
  | .viaRdT1ch _ => .via
  | .viaRdT1ll _ => .via
  | .viaRdT1lh _ => .via
  | .viaRdT2cl _ => .via
  | .viaRdT2ch _ => .via
  | .viaRdSr _ => .via
  | .viaRdAcr _ => .via
  | .viaRdPcr _ => .via
  | .viaRdIfr _ => .via
  | .viaRdIer _ => .via
  | .viaRdOrax _ => .via
  | .viaWrOrb _ _ => .via
  | .viaWrOra _ _ => .via
  | .viaWrDdrb _ _ => .via
  | .viaWrDdra _ _ => .via
  | .viaWrT1cl _ _ => .via
  | .viaWrT1ch _ _ => .via
  | .viaWrT1ll _ _ => .via
  | .viaWrT1lh _ _ => .via
  | .viaWrT2cl _ _ => .via
  | .viaWrT2ch _ _ => .via
  | .viaWrSr _ _ => .via
  | .viaWrAcr _ _ => .via
  | .viaWrPcr _ _ => .via
  | .viaWrIfr _ _ => .via
  | .viaWrIer _ _ => .via
  | .viaWrOrax _ _ => .via
  | .viaStep _ => .via
  | .viaPinA _ _ => .via
  | .viaPinB _ _ => .via
  | .aciaRdData _ => .acia
  | .aciaRdStat _ => .acia
  | .aciaRdCtrl _ => .acia
  | .aciaRdTest _ => .acia
  | .aciaWrData _ _ => .acia
  | .aciaWrCmd _ _ => .acia
  | .aciaWrCtrl _ _ => .acia
  | .aciaWrTest _ _ => .acia
  | .aciaStep _ => .acia
  | .aciaRxb _ _ => .acia
  | .piaRdPb _ => .pia
  | .piaRdPa _ => .pia
  | .piaRdCrb _ => .pia
  | .piaRdCra _ => .pia
  | .piaWrPb _ _ => .pia
  | .piaWrPa _ _ => .pia
  | .piaWrCrb _ _ => .pia
  | .piaWrCra _ _ => .pia
  | .piaLineCa1 _ _ => .pia
  | .piaLineCa2 _ _ => .pia
  | .piaLineCb1 _ _ => .pia
  | .piaLineCb2 _ _ => .pia
  | .piaStep _ => .pia
  | .anySigReset _ => .any
  | .aciaSigNmi _ => .acia
  | .aciaSigIrq _ => .acia
  | .anySigOther _ => .any
  | .viaSigNmi _ => .via
  | .viaSigIrq _ => .via
  | .piaSigNmi _ => .pia
  | .piaSigIrq _ => .pia
  | .anySave _ => .any
  | .viaLoad _ _ => .via
  | .aciaLoad _ _ => .acia
  | .piaLoad _ _ => .pia
  | .aciaSink _ _ => .acia

/-- The check of an operation against the device kinds: the reason it is refused for, if any (R122 steps 1 and 2). -/
def Instr.illFormed (kinds : List Kind) (i : Instr) : Option Reject :=
  match kinds[i.dev.toNat]? with
  | none => some .noSuchDevice
  | some k => if i.format.admits k then none else some .kindLacksOperation

/-- A well-formed operation: its device exists and its device's kind has it (R122). Every other operand is
well-formed by its type (a level or a sink attachment is a Boolean, so no must-be-zero bit can be set). -/
abbrev Instr.WellFormed (kinds : List Kind) (i : Instr) : Prop := i.illFormed kinds = none

end Sys2Proof
end

