-- ==== Sys2Proof/Decode.lean ====
section
/-! DEFINITION. The host-operation word: its fields (spec 30_encoding.md R120), the register maps (R101 to R103), the
decoder against a configuration's device kinds (R121 to R123), the encoder that writes the canonical word, and the
row of spec/opcode_table.json each operation belongs to. -/

namespace Sys2Proof

/-! ### The word and its fields -/

/-- The four fields of a host-operation word (R120). -/
structure WordFields where
  dev : DevId
  kind : BitVec 4
  arg : BitVec 4
  data : Byte
  deriving DecidableEq, Repr

/-- Cut a word into its fields: `dev` 23..16, `kind` 15..12, `arg` 11..8, `data` 7..0 (R120). -/
def unpackWord (w : HopWord) : WordFields where
  dev := w.extractLsb' 16 8
  kind := w.extractLsb' 12 4
  arg := w.extractLsb' 8 4
  data := w.extractLsb' 0 8

/-- Assemble a word from its fields (R120). -/
def packWord (f : WordFields) : HopWord := f.dev ++ f.kind ++ f.arg ++ f.data

/-- The operation kinds of R121. -/
inductive OpKind where
  | rd
  | wr
  | step
  | sig
  | rxb
  | line
  | pin
  | save
  | load
  | sink
  deriving DecidableEq, Repr

/-- The code of an operation kind in the `kind` field (R121). -/
def OpKind.code : OpKind → BitVec 4
  | .rd => 0x0
  | .wr => 0x1
  | .step => 0x2
  | .sig => 0x3
  | .rxb => 0x4
  | .line => 0x5
  | .pin => 0x6
  | .save => 0x7
  | .load => 0x8
  | .sink => 0x9

/-- The operation kind of a `kind` field; 0xA to 0xF are reserved (R121). -/
def opKindOf (code : BitVec 4) : Option OpKind :=
  match code.toNat with
  | 0x0 => some .rd
  | 0x1 => some .wr
  | 0x2 => some .step
  | 0x3 => some .sig
  | 0x4 => some .rxb
  | 0x5 => some .line
  | 0x6 => some .pin
  | 0x7 => some .save
  | 0x8 => some .load
  | 0x9 => some .sink
  | _ => none

/-! ### Register maps -/

/-- The 16 registers of a VIA window, by the names of R101. -/
inductive ViaReg where
  | orb
  | ora
  | ddrb
  | ddra
  | t1cl
  | t1ch
  | t1ll
  | t1lh
  | t2cl
  | t2ch
  | sr
  | acr
  | pcr
  | ifr
  | ier
  | orax
  deriving DecidableEq, Repr

/-- The offset of a VIA register (R101). -/
def ViaReg.offset : ViaReg → BitVec 4
  | .orb => 0x0
  | .ora => 0x1
  | .ddrb => 0x2
  | .ddra => 0x3
  | .t1cl => 0x4
  | .t1ch => 0x5
  | .t1ll => 0x6
  | .t1lh => 0x7
  | .t2cl => 0x8
  | .t2ch => 0x9
  | .sr => 0xA
  | .acr => 0xB
  | .pcr => 0xC
  | .ifr => 0xD
  | .ier => 0xE
  | .orax => 0xF

/-- The VIA register at an offset; all 16 are assigned, so R174 has no offset left (R101). -/
def viaRegAt (off : BitVec 4) : ViaReg :=
  match off.toNat with
  | 0x0 => .orb
  | 0x1 => .ora
  | 0x2 => .ddrb
  | 0x3 => .ddra
  | 0x4 => .t1cl
  | 0x5 => .t1ch
  | 0x6 => .t1ll
  | 0x7 => .t1lh
  | 0x8 => .t2cl
  | 0x9 => .t2ch
  | 0xA => .sr
  | 0xB => .acr
  | 0xC => .pcr
  | 0xD => .ifr
  | 0xE => .ier
  | _ => .orax

/-- The 4 registers of an ACIA window, by the read names of R102 (`stat` is `CMD` when written). -/
inductive AciaReg where
  | data
  | stat
  | ctrl
  | test
  deriving DecidableEq, Repr

/-- The offset of an ACIA register (R102). -/
def AciaReg.offset : AciaReg → BitVec 2
  | .data => 0
  | .stat => 1
  | .ctrl => 2
  | .test => 3

/-- The ACIA register at a masked offset (R102). -/
def aciaRegAt (off : BitVec 2) : AciaReg :=
  match off.toNat with
  | 0 => .data
  | 1 => .stat
  | 2 => .ctrl
  | _ => .test

/-- The 4 registers of a PIA window (R103). -/
inductive PiaReg where
  | pb
  | pa
  | crb
  | cra
  deriving DecidableEq, Repr

/-- The offset of a PIA register (R103). -/
def PiaReg.offset : PiaReg → BitVec 2
  | .pb => 0
  | .pa => 1
  | .crb => 2
  | .cra => 3

/-- The PIA register at a masked offset (R103). -/
def piaRegAt (off : BitVec 2) : PiaReg :=
  match off.toNat with
  | 0 => .pb
  | 1 => .pa
  | 2 => .crb
  | _ => .cra

/-- A 4-byte window masks the presented offset to its low two bits (20_memory.md R72, R122 step 3). -/
def maskOffset2 (arg : BitVec 4) : BitVec 2 := arg.setWidth 2

/-! ### Decoding -/

/-- The read operation of a VIA register (R101). -/
def viaReadOp (d : DevId) : ViaReg → Instr
  | .orb => .viaRdOrb d
  | .ora => .viaRdOra d
  | .ddrb => .viaRdDdrb d
  | .ddra => .viaRdDdra d
  | .t1cl => .viaRdT1cl d
  | .t1ch => .viaRdT1ch d
  | .t1ll => .viaRdT1ll d
  | .t1lh => .viaRdT1lh d
  | .t2cl => .viaRdT2cl d
  | .t2ch => .viaRdT2ch d
  | .sr => .viaRdSr d
  | .acr => .viaRdAcr d
  | .pcr => .viaRdPcr d
  | .ifr => .viaRdIfr d
  | .ier => .viaRdIer d
  | .orax => .viaRdOrax d

/-- The write operation of a VIA register (R101). -/
def viaWriteOp (d : DevId) (v : Byte) : ViaReg → Instr
  | .orb => .viaWrOrb d v
  | .ora => .viaWrOra d v
  | .ddrb => .viaWrDdrb d v
  | .ddra => .viaWrDdra d v
  | .t1cl => .viaWrT1cl d v
  | .t1ch => .viaWrT1ch d v
  | .t1ll => .viaWrT1ll d v
  | .t1lh => .viaWrT1lh d v
  | .t2cl => .viaWrT2cl d v
  | .t2ch => .viaWrT2ch d v
  | .sr => .viaWrSr d v
  | .acr => .viaWrAcr d v
  | .pcr => .viaWrPcr d v
  | .ifr => .viaWrIfr d v
  | .ier => .viaWrIer d v
  | .orax => .viaWrOrax d v

/-- The read operation of an ACIA register (R102). -/
def aciaReadOp (d : DevId) : AciaReg → Instr
  | .data => .aciaRdData d
  | .stat => .aciaRdStat d
  | .ctrl => .aciaRdCtrl d
  | .test => .aciaRdTest d

/-- The write operation of an ACIA register (R102). -/
def aciaWriteOp (d : DevId) (v : Byte) : AciaReg → Instr
  | .data => .aciaWrData d v
  | .stat => .aciaWrCmd d v
  | .ctrl => .aciaWrCtrl d v
  | .test => .aciaWrTest d v

/-- The read operation of a PIA register (R103). -/
def piaReadOp (d : DevId) : PiaReg → Instr
  | .pb => .piaRdPb d
  | .pa => .piaRdPa d
  | .crb => .piaRdCrb d
  | .cra => .piaRdCra d

/-- The write operation of a PIA register (R103). -/
def piaWriteOp (d : DevId) (v : Byte) : PiaReg → Instr
  | .pb => .piaWrPb d v
  | .pa => .piaWrPa d v
  | .crb => .piaWrCrb d v
  | .cra => .piaWrCra d v

/-- Register read at the offset presented (R122 step 3). -/
def decodeRead (k : Kind) (d : DevId) (arg : BitVec 4) : Instr :=
  match k with
  | .via => viaReadOp d (viaRegAt arg)
  | .acia => aciaReadOp d (aciaRegAt (maskOffset2 arg))
  | .pia => piaReadOp d (piaRegAt (maskOffset2 arg))

/-- Register write at the offset presented (R122 step 3). -/
def decodeWrite (k : Kind) (d : DevId) (arg : BitVec 4) (v : Byte) : Instr :=
  match k with
  | .via => viaWriteOp d v (viaRegAt arg)
  | .acia => aciaWriteOp d v (aciaRegAt (maskOffset2 arg))
  | .pia => piaWriteOp d v (piaRegAt (maskOffset2 arg))

/-- `STEP`, valid for all kinds (R121). -/
def decodeStep (k : Kind) (d : DevId) : Instr :=
  match k with
  | .via => .viaStep d
  | .acia => .aciaStep d
  | .pia => .piaStep d

/-- `SIG`: codes 0, 1, 2 and 0xF; 3 to 0xE are reserved (R121, R290). -/
def decodeSignal (k : Kind) (d : DevId) (arg : BitVec 4) : Except Reject Instr :=
  match arg.toNat, k with
  | 0x0, _ => .ok (.anySigReset d)
  | 0x1, .via => .ok (.viaSigNmi d)
  | 0x1, .acia => .ok (.aciaSigNmi d)
  | 0x1, .pia => .ok (.piaSigNmi d)
  | 0x2, .via => .ok (.viaSigIrq d)
  | 0x2, .acia => .ok (.aciaSigIrq d)
  | 0x2, .pia => .ok (.piaSigIrq d)
  | 0xF, _ => .ok (.anySigOther d)
  | _, _ => .error .reservedSignal

/-- `LINE`: a PIA's line number in `arg`, its level in `data[0]`; the other bits must be 0 (R121). -/
def decodeLine (d : DevId) (arg : BitVec 4) (data : Byte) : Except Reject Instr :=
  if data.extractLsb' 1 7 ≠ 0 then .error .mustBeZero
  else
    match arg.toNat with
    | 0x0 => .ok (.piaLineCa1 d (data.getLsbD 0))
    | 0x1 => .ok (.piaLineCa2 d (data.getLsbD 0))
    | 0x2 => .ok (.piaLineCb1 d (data.getLsbD 0))
    | 0x3 => .ok (.piaLineCb2 d (data.getLsbD 0))
    | _ => .error .mustBeZero

/-- `PIN`: a VIA's port select in `arg[0]`; `arg[3:1]` must be 0 (R121). -/
def decodePin (d : DevId) (arg : BitVec 4) (data : Byte) : Except Reject Instr :=
  match arg.toNat with
  | 0x0 => .ok (.viaPinA d data)
  | 0x1 => .ok (.viaPinB d data)
  | _ => .error .mustBeZero

/-- `LOAD`, valid for all kinds; `data` is the index of the record (R121). -/
def decodeLoad (k : Kind) (d : DevId) (n : Byte) : Instr :=
  match k with
  | .via => .viaLoad d n
  | .acia => .aciaLoad d n
  | .pia => .piaLoad d n

/-- `SINK`: attach or detach in `data[0]`; `data[7:1]` must be 0 (R121). -/
def decodeSink (d : DevId) (data : Byte) : Except Reject Instr :=
  if data.extractLsb' 1 7 ≠ 0 then .error .mustBeZero else .ok (.aciaSink d (data.getLsbD 0))

/-- Steps 2 to 4 of R122: the operation of a kind code at a device of kind `k`. -/
def decodeOp (k : Kind) (op : OpKind) (f : WordFields) : Except Reject Instr :=
  match op, k with
  | .rd, k => .ok (decodeRead k f.dev f.arg)
  | .wr, k => .ok (decodeWrite k f.dev f.arg f.data)
  | .step, k => .ok (decodeStep k f.dev)
  | .sig, k => decodeSignal k f.dev f.arg
  | .rxb, .acia => .ok (.aciaRxb f.dev f.data)
  | .rxb, .via => .error .kindLacksOperation
  | .rxb, .pia => .error .kindLacksOperation
  | .line, .pia => decodeLine f.dev f.arg f.data
  | .line, .via => .error .kindLacksOperation
  | .line, .acia => .error .kindLacksOperation
  | .pin, .via => decodePin f.dev f.arg f.data
  | .pin, .acia => .error .kindLacksOperation
  | .pin, .pia => .error .kindLacksOperation
  | .save, _ => .ok (.anySave f.dev)
  | .load, k => .ok (decodeLoad k f.dev f.data)
  | .sink, .acia => decodeSink f.dev f.data
  | .sink, .via => .error .kindLacksOperation
  | .sink, .pia => .error .kindLacksOperation

/-- Decoding of the fields of a word (R122): the device must exist and the kind code must not be reserved. -/
def decodeFields (kinds : List Kind) (f : WordFields) : Except Reject Instr :=
  match kinds[f.dev.toNat]? with
  | none => .error .noSuchDevice
  | some k =>
    match opKindOf f.kind with
    | none => .error .reservedKind
    | some op => decodeOp k op f

/-- The decoder: every 24-bit word names exactly one operation or is refused with a reason (R122, R123). -/
def decode (kinds : List Kind) (w : HopWord) : Except Reject Instr := decodeFields kinds (unpackWord w)

/-! ### Encoding -/

/-- A level or an attachment in bit 0 of `data`, the other bits 0 (R121). -/
def boolData (b : Bool) : Byte := if b then 1 else 0

/-- A 2-bit offset as presented in `arg`, upper bits 0 (R121). -/
def argOfOffset2 (off : BitVec 2) : BitVec 4 := off.setWidth 4

/-- The fields of the canonical word of an operation: ignored fields are 0 (R121). -/
def encodeFields : Instr → WordFields
  | .viaRdOrb d => ⟨d, OpKind.code .rd, ViaReg.orb.offset, 0⟩
  | .viaRdOra d => ⟨d, OpKind.code .rd, ViaReg.ora.offset, 0⟩
  | .viaRdDdrb d => ⟨d, OpKind.code .rd, ViaReg.ddrb.offset, 0⟩
  | .viaRdDdra d => ⟨d, OpKind.code .rd, ViaReg.ddra.offset, 0⟩
  | .viaRdT1cl d => ⟨d, OpKind.code .rd, ViaReg.t1cl.offset, 0⟩
  | .viaRdT1ch d => ⟨d, OpKind.code .rd, ViaReg.t1ch.offset, 0⟩
  | .viaRdT1ll d => ⟨d, OpKind.code .rd, ViaReg.t1ll.offset, 0⟩
  | .viaRdT1lh d => ⟨d, OpKind.code .rd, ViaReg.t1lh.offset, 0⟩
  | .viaRdT2cl d => ⟨d, OpKind.code .rd, ViaReg.t2cl.offset, 0⟩
  | .viaRdT2ch d => ⟨d, OpKind.code .rd, ViaReg.t2ch.offset, 0⟩
  | .viaRdSr d => ⟨d, OpKind.code .rd, ViaReg.sr.offset, 0⟩
  | .viaRdAcr d => ⟨d, OpKind.code .rd, ViaReg.acr.offset, 0⟩
  | .viaRdPcr d => ⟨d, OpKind.code .rd, ViaReg.pcr.offset, 0⟩
  | .viaRdIfr d => ⟨d, OpKind.code .rd, ViaReg.ifr.offset, 0⟩
  | .viaRdIer d => ⟨d, OpKind.code .rd, ViaReg.ier.offset, 0⟩
  | .viaRdOrax d => ⟨d, OpKind.code .rd, ViaReg.orax.offset, 0⟩
  | .viaWrOrb d v => ⟨d, OpKind.code .wr, ViaReg.orb.offset, v⟩
  | .viaWrOra d v => ⟨d, OpKind.code .wr, ViaReg.ora.offset, v⟩
  | .viaWrDdrb d v => ⟨d, OpKind.code .wr, ViaReg.ddrb.offset, v⟩
  | .viaWrDdra d v => ⟨d, OpKind.code .wr, ViaReg.ddra.offset, v⟩
  | .viaWrT1cl d v => ⟨d, OpKind.code .wr, ViaReg.t1cl.offset, v⟩
  | .viaWrT1ch d v => ⟨d, OpKind.code .wr, ViaReg.t1ch.offset, v⟩
  | .viaWrT1ll d v => ⟨d, OpKind.code .wr, ViaReg.t1ll.offset, v⟩
  | .viaWrT1lh d v => ⟨d, OpKind.code .wr, ViaReg.t1lh.offset, v⟩
  | .viaWrT2cl d v => ⟨d, OpKind.code .wr, ViaReg.t2cl.offset, v⟩
  | .viaWrT2ch d v => ⟨d, OpKind.code .wr, ViaReg.t2ch.offset, v⟩
  | .viaWrSr d v => ⟨d, OpKind.code .wr, ViaReg.sr.offset, v⟩
  | .viaWrAcr d v => ⟨d, OpKind.code .wr, ViaReg.acr.offset, v⟩
  | .viaWrPcr d v => ⟨d, OpKind.code .wr, ViaReg.pcr.offset, v⟩
  | .viaWrIfr d v => ⟨d, OpKind.code .wr, ViaReg.ifr.offset, v⟩
  | .viaWrIer d v => ⟨d, OpKind.code .wr, ViaReg.ier.offset, v⟩
  | .viaWrOrax d v => ⟨d, OpKind.code .wr, ViaReg.orax.offset, v⟩
  | .viaStep d => ⟨d, OpKind.code .step, 0, 0⟩
  | .viaPinA d v => ⟨d, OpKind.code .pin, 0, v⟩
  | .viaPinB d v => ⟨d, OpKind.code .pin, 1, v⟩
  | .aciaRdData d => ⟨d, OpKind.code .rd, argOfOffset2 AciaReg.data.offset, 0⟩
  | .aciaRdStat d => ⟨d, OpKind.code .rd, argOfOffset2 AciaReg.stat.offset, 0⟩
  | .aciaRdCtrl d => ⟨d, OpKind.code .rd, argOfOffset2 AciaReg.ctrl.offset, 0⟩
  | .aciaRdTest d => ⟨d, OpKind.code .rd, argOfOffset2 AciaReg.test.offset, 0⟩
  | .aciaWrData d v => ⟨d, OpKind.code .wr, argOfOffset2 AciaReg.data.offset, v⟩
  | .aciaWrCmd d v => ⟨d, OpKind.code .wr, argOfOffset2 AciaReg.stat.offset, v⟩
  | .aciaWrCtrl d v => ⟨d, OpKind.code .wr, argOfOffset2 AciaReg.ctrl.offset, v⟩
  | .aciaWrTest d v => ⟨d, OpKind.code .wr, argOfOffset2 AciaReg.test.offset, v⟩
  | .aciaStep d => ⟨d, OpKind.code .step, 0, 0⟩
  | .aciaRxb d b => ⟨d, OpKind.code .rxb, 0, b⟩
  | .piaRdPb d => ⟨d, OpKind.code .rd, argOfOffset2 PiaReg.pb.offset, 0⟩
  | .piaRdPa d => ⟨d, OpKind.code .rd, argOfOffset2 PiaReg.pa.offset, 0⟩
  | .piaRdCrb d => ⟨d, OpKind.code .rd, argOfOffset2 PiaReg.crb.offset, 0⟩
  | .piaRdCra d => ⟨d, OpKind.code .rd, argOfOffset2 PiaReg.cra.offset, 0⟩
  | .piaWrPb d v => ⟨d, OpKind.code .wr, argOfOffset2 PiaReg.pb.offset, v⟩
  | .piaWrPa d v => ⟨d, OpKind.code .wr, argOfOffset2 PiaReg.pa.offset, v⟩
  | .piaWrCrb d v => ⟨d, OpKind.code .wr, argOfOffset2 PiaReg.crb.offset, v⟩
  | .piaWrCra d v => ⟨d, OpKind.code .wr, argOfOffset2 PiaReg.cra.offset, v⟩
  | .piaLineCa1 d lv => ⟨d, OpKind.code .line, 0, boolData lv⟩
  | .piaLineCa2 d lv => ⟨d, OpKind.code .line, 1, boolData lv⟩
  | .piaLineCb1 d lv => ⟨d, OpKind.code .line, 2, boolData lv⟩
  | .piaLineCb2 d lv => ⟨d, OpKind.code .line, 3, boolData lv⟩
  | .piaStep d => ⟨d, OpKind.code .step, 0, 0⟩
  | .anySigReset d => ⟨d, OpKind.code .sig, 0x0, 0⟩
  | .aciaSigNmi d => ⟨d, OpKind.code .sig, 0x1, 0⟩
  | .aciaSigIrq d => ⟨d, OpKind.code .sig, 0x2, 0⟩
  | .anySigOther d => ⟨d, OpKind.code .sig, 0xF, 0⟩
  | .viaSigNmi d => ⟨d, OpKind.code .sig, 0x1, 0⟩
  | .viaSigIrq d => ⟨d, OpKind.code .sig, 0x2, 0⟩
  | .piaSigNmi d => ⟨d, OpKind.code .sig, 0x1, 0⟩
  | .piaSigIrq d => ⟨d, OpKind.code .sig, 0x2, 0⟩
  | .anySave d => ⟨d, OpKind.code .save, 0, 0⟩
  | .viaLoad d n => ⟨d, OpKind.code .load, 0, n⟩
  | .aciaLoad d n => ⟨d, OpKind.code .load, 0, n⟩
  | .piaLoad d n => ⟨d, OpKind.code .load, 0, n⟩
  | .aciaSink d a => ⟨d, OpKind.code .sink, 0, boolData a⟩

/-- The canonical word of an operation (R120, R121). -/
def encode (i : Instr) : HopWord := packWord (encodeFields i)

/-! ### The opcode table -/

/-- A row of spec/opcode_table.json: the device kind it is for, and the bits of a word's bits 15 to 0 it fixes. -/
structure TableRow where
  format : Format
  bits : BitVec 16
  mask : BitVec 16
  deriving DecidableEq, Repr

/-- Do the low 16 bits of a word have the fixed bits of the row? -/
def TableRow.fits (r : TableRow) (w : HopWord) : Bool := (w.extractLsb' 0 16 &&& r.mask) == r.bits

/-- The row of an operation, copied from spec/opcode_table.json. -/
def Instr.row : Instr → TableRow
  | .viaRdOrb _ => ⟨.via, 0x0000, 0xFF00⟩
  | .viaRdOra _ => ⟨.via, 0x0100, 0xFF00⟩
  | .viaRdDdrb _ => ⟨.via, 0x0200, 0xFF00⟩
  | .viaRdDdra _ => ⟨.via, 0x0300, 0xFF00⟩
  | .viaRdT1cl _ => ⟨.via, 0x0400, 0xFF00⟩
  | .viaRdT1ch _ => ⟨.via, 0x0500, 0xFF00⟩
  | .viaRdT1ll _ => ⟨.via, 0x0600, 0xFF00⟩
  | .viaRdT1lh _ => ⟨.via, 0x0700, 0xFF00⟩
  | .viaRdT2cl _ => ⟨.via, 0x0800, 0xFF00⟩
  | .viaRdT2ch _ => ⟨.via, 0x0900, 0xFF00⟩
  | .viaRdSr _ => ⟨.via, 0x0A00, 0xFF00⟩
  | .viaRdAcr _ => ⟨.via, 0x0B00, 0xFF00⟩
  | .viaRdPcr _ => ⟨.via, 0x0C00, 0xFF00⟩
  | .viaRdIfr _ => ⟨.via, 0x0D00, 0xFF00⟩
  | .viaRdIer _ => ⟨.via, 0x0E00, 0xFF00⟩
  | .viaRdOrax _ => ⟨.via, 0x0F00, 0xFF00⟩
  | .viaWrOrb _ _ => ⟨.via, 0x1000, 0xFF00⟩
  | .viaWrOra _ _ => ⟨.via, 0x1100, 0xFF00⟩
  | .viaWrDdrb _ _ => ⟨.via, 0x1200, 0xFF00⟩
  | .viaWrDdra _ _ => ⟨.via, 0x1300, 0xFF00⟩
  | .viaWrT1cl _ _ => ⟨.via, 0x1400, 0xFF00⟩
  | .viaWrT1ch _ _ => ⟨.via, 0x1500, 0xFF00⟩
  | .viaWrT1ll _ _ => ⟨.via, 0x1600, 0xFF00⟩
  | .viaWrT1lh _ _ => ⟨.via, 0x1700, 0xFF00⟩
  | .viaWrT2cl _ _ => ⟨.via, 0x1800, 0xFF00⟩
  | .viaWrT2ch _ _ => ⟨.via, 0x1900, 0xFF00⟩
  | .viaWrSr _ _ => ⟨.via, 0x1A00, 0xFF00⟩
  | .viaWrAcr _ _ => ⟨.via, 0x1B00, 0xFF00⟩
  | .viaWrPcr _ _ => ⟨.via, 0x1C00, 0xFF00⟩
  | .viaWrIfr _ _ => ⟨.via, 0x1D00, 0xFF00⟩
  | .viaWrIer _ _ => ⟨.via, 0x1E00, 0xFF00⟩
  | .viaWrOrax _ _ => ⟨.via, 0x1F00, 0xFF00⟩
  | .viaStep _ => ⟨.via, 0x2000, 0xF000⟩
  | .viaPinA _ _ => ⟨.via, 0x6000, 0xFF00⟩
  | .viaPinB _ _ => ⟨.via, 0x6100, 0xFF00⟩
  | .aciaRdData _ => ⟨.acia, 0x0000, 0xF300⟩
  | .aciaRdStat _ => ⟨.acia, 0x0100, 0xF300⟩
  | .aciaRdCtrl _ => ⟨.acia, 0x0200, 0xF300⟩
  | .aciaRdTest _ => ⟨.acia, 0x0300, 0xF300⟩
  | .aciaWrData _ _ => ⟨.acia, 0x1000, 0xF300⟩
  | .aciaWrCmd _ _ => ⟨.acia, 0x1100, 0xF300⟩
  | .aciaWrCtrl _ _ => ⟨.acia, 0x1200, 0xF300⟩
  | .aciaWrTest _ _ => ⟨.acia, 0x1300, 0xF300⟩
  | .aciaStep _ => ⟨.acia, 0x2000, 0xF000⟩
  | .aciaRxb _ _ => ⟨.acia, 0x4000, 0xF000⟩
  | .piaRdPb _ => ⟨.pia, 0x0000, 0xF300⟩
  | .piaRdPa _ => ⟨.pia, 0x0100, 0xF300⟩
  | .piaRdCrb _ => ⟨.pia, 0x0200, 0xF300⟩
  | .piaRdCra _ => ⟨.pia, 0x0300, 0xF300⟩
  | .piaWrPb _ _ => ⟨.pia, 0x1000, 0xF300⟩
  | .piaWrPa _ _ => ⟨.pia, 0x1100, 0xF300⟩
  | .piaWrCrb _ _ => ⟨.pia, 0x1200, 0xF300⟩
  | .piaWrCra _ _ => ⟨.pia, 0x1300, 0xF300⟩
  | .piaLineCa1 _ _ => ⟨.pia, 0x5000, 0xFFFE⟩
  | .piaLineCa2 _ _ => ⟨.pia, 0x5100, 0xFFFE⟩
  | .piaLineCb1 _ _ => ⟨.pia, 0x5200, 0xFFFE⟩
  | .piaLineCb2 _ _ => ⟨.pia, 0x5300, 0xFFFE⟩
  | .piaStep _ => ⟨.pia, 0x2000, 0xF000⟩
  | .anySigReset _ => ⟨.any, 0x3000, 0xFF00⟩
  | .aciaSigNmi _ => ⟨.acia, 0x3100, 0xFF00⟩
  | .aciaSigIrq _ => ⟨.acia, 0x3200, 0xFF00⟩
  | .anySigOther _ => ⟨.any, 0x3F00, 0xFF00⟩
  | .viaSigNmi _ => ⟨.via, 0x3100, 0xFF00⟩
  | .viaSigIrq _ => ⟨.via, 0x3200, 0xFF00⟩
  | .piaSigNmi _ => ⟨.pia, 0x3100, 0xFF00⟩
  | .piaSigIrq _ => ⟨.pia, 0x3200, 0xFF00⟩
  | .anySave _ => ⟨.any, 0x7000, 0xF000⟩
  | .viaLoad _ _ => ⟨.via, 0x8000, 0xF000⟩
  | .aciaLoad _ _ => ⟨.acia, 0x8000, 0xF000⟩
  | .piaLoad _ _ => ⟨.pia, 0x8000, 0xF000⟩
  | .aciaSink _ _ => ⟨.acia, 0x9000, 0xF0FE⟩

/-! ### The host's question -/

/-- The instruction the decoder reads from the low `nbits` bits of `w`, the word's other bits 0. The `dev` field of a
16-bit table word is thus 0, and the kind of device 0 is that of the reference configuration (log entry 17). -/
def decodeTableWord (nbits w : Nat) : Option Instr :=
  match decode Config.reference.kinds (BitVec.ofNat 24 (w % 2 ^ nbits)) with
  | .ok i => some i
  | .error _ => none

end Sys2Proof
end

