-- ==== Sys2Proof/Machine/State.lean ====
section
/-! DEFINITION. The state of the machine: the whole block (spec 10_state.md R26, R27) with the configuration it was
built with, the host's trace of operations, and what it has given the host. Also the reasons a step can stop, and
the power-on state (70_reset_and_hazards.md R372). -/

namespace Sys2Proof.Machine

/-- Device `d` with its aggregator bit `AGG.contrib[d]` (R26, R27): the aggregator is the list of these bits. -/
structure Slot where
  dev : Device
  contrib : Bool
  deriving DecidableEq, Repr

/-- The output events of the block (R11). -/
inductive Event where
  /-- `emit Tx(d, b)`: serial device `d` hands byte `b` to its sink (R212). -/
  | tx (d : DevId) (b : Byte)
  /-- `emit Nmi(d)`: device `d` asserts the non-maskable line (R330). -/
  | nmi (d : DevId)
  deriving DecidableEq, Repr

/-- What an operation returns to the host (R11): nothing, the byte a register read returns, or the record of a
save. -/
inductive Returned where
  | nothing
  | byte (b : Byte)
  | record (r : Record)
  deriving DecidableEq, Repr

/-- The machine (R26). `slots` is the block itself; `cfg` is written by nothing (R6). -/
structure State where
  /-- The parameters of R6: an argument of every operation, never written (log entry 1). -/
  cfg : Config
  /-- The devices in index order, each with its aggregator bit (R26, R27). -/
  slots : List Slot
  /-- The output events so far, oldest first (R11). -/
  output : List Event
  /-- The record table of the trace (R121): a save appends its record, a load names one by its index. -/
  records : List Record
  /-- What the last operation returned (R11); the model's own field (log entry 12). -/
  ret : Returned
  /-- The operations the host has still to issue, first to issue first; the model's own field (log entry 8). -/
  trace : List HopWord
  /-- The number of operations issued so far, the stand-in for a program counter (R21). -/
  index : Nat
  deriving DecidableEq, Repr

/-- The reasons the machine stops with a fault: none. No operation of the block faults, traps or returns an error
(R340, R18), so the type has no constructor and no step can end in a fault; safe. -/
inductive Fault where
  deriving DecidableEq, Repr

/-- The reasons a step has no next state. None is a behaviour of the hardware (R18): each stands for a call the
host interface does not have, or a configuration the block has no behaviour for. -/
inductive Refusal where
  /-- Raised by an arm of `exec` for an operation with no meaning yet; safe. No arm raises it. -/
  | notModelled (mnemonic : String)
  /-- Raised by `step` when the configuration is invalid (R7, 93_implementation_defined.md U10); safe. -/
  | invalidConfig
  /-- Raised by `step` when the decoder refuses the word, and by `exec` on an operation whose device is absent or
  of a kind that lacks it (R123); safe. -/
  | refusedWord (why : Reject)
  /-- Raised by the `LOAD` operations when the record table has no record of that index (R121); safe. -/
  | noRecord
  /-- Raised by the `LOAD` operations when the record is of another kind (R304, U9); safe. -/
  | recordOfAnotherKind
  deriving DecidableEq, Repr

/-- The outcome of an operation or a step. -/
abbrev Outcome := Host.Outcome State Fault Refusal

/-- The power-on state of a configuration (R372): every device at its reset values, every contribution 0, no
output, no record; the host has issued nothing and is about to issue nothing. -/
def State.powerOn (c : Config) : State where
  cfg := c
  slots := c.devices.map fun dc => ⟨devicePowerOn dc, false⟩
  output := []
  records := []
  ret := .nothing
  trace := []
  index := 0

/-- The machine right after reset: the power-on state (R372) of the reference configuration. DESIGN CHOICE (log
entries 2 and 3): the spec leaves the parameters open. -/
def State.reset : State := State.powerOn Config.reference

end Sys2Proof.Machine
end

