-- ==== Sys2Proof/Machine/Ops.lean ====
section
/-! DEFINITION. The operations the meanings share: access to a device of a kind, committing an operation's effect,
re-evaluation of the IRQ contribution (spec 60_exceptions.md R323), the shared line (R322), reset of one device
(70_reset_and_hazards.md R371), capture of a record (43_signals_persistence.md R300), handing a byte to the sink
(41_acia_serial.md R212), and fetching the next host operation.

TAKING AN EXCEPTION. The block takes none and returns from none (R340, R343, R344): it saves nothing, changes no
mode and supplies no vector. Its whole part in the machine's trap mechanism is the contribution written by
re-evaluation, the level `State.irqLine`, and the `Nmi` event; these stand here in the place of exception entry. -/

namespace Sys2Proof.Machine

/-! ### What an operation does to its device -/

/-- The effect of an operation on its device: the device after it, the device's aggregator bit after it, what it
returns, and the events it emits. -/
structure Effect (α : Type) where
  dev : α
  contrib : Bool
  ret : Returned
  events : List Event

/-- The device and its contribution as given, nothing returned, nothing emitted. -/
def Effect.silent {α : Type} (dev : α) (contrib : Bool) : Effect α := ⟨dev, contrib, .nothing, []⟩

/-- A register read with no side effect: the device is as it was and the byte is returned (R76). -/
def Effect.answer {α : Type} (dev : α) (contrib : Bool) (b : Byte) : Effect α := ⟨dev, contrib, .byte b, []⟩

/-- `Reeval(d)` of a VIA after its registers became `v` (R323). -/
def viaReeval (v : Via) (ret : Returned) : Effect Via := ⟨v, v.want, ret, []⟩

/-- The ACIA with its status IRQ bit rewritten by its want (R323). -/
def aciaMirrorIrq (a : Acia) : Acia := { a with status := writeBit a.status bitIRQ a.want }

/-- `Reeval(d)` of an ACIA after its registers became `a`: the status IRQ bit and the contribution (R323). -/
def aciaReeval (a : Acia) (ret : Returned) (events : List Event) : Effect Acia :=
  ⟨aciaMirrorIrq a, a.want, ret, events⟩

/-- `Reeval(d)` of a PIA after its registers became `p` (R323). -/
def piaReeval (p : Pia) : Effect Pia := ⟨p, p.want, .nothing, []⟩

/-- `emit Tx(d, b)`: an event if a sink is attached, else the byte is lost (R212). -/
def emitTx (d : DevId) (attached : Bool) (b : Byte) : List Event := if attached then [.tx d b] else []

/-! ### Access to the addressed device -/

/-- Slot `d` of the block. -/
def State.slotAt (s : State) (d : DevId) : Option Slot := s.slots[d.toNat]?

/-- Write slot `d`, what the operation returned, and its events; no other slot changes (R26). -/
def State.commit (s : State) (d : DevId) (slot : Slot) (ret : Returned) (events : List Event) : State :=
  { s with slots := s.slots.set d.toNat slot, ret := ret, output := s.output ++ events }

/-- An operation any device kind has, as a function of the slot. -/
def onAny (d : DevId) (s : State) (f : Slot → State) : Outcome :=
  match s.slotAt d with
  | some slot => .next (f slot)
  | none => .refused (.refusedWord .noSuchDevice)

/-- An operation of the VIA: its effect from the device's state and its contribution. -/
def onVia (d : DevId) (s : State) (f : Via → Bool → Effect Via) : Outcome :=
  match s.slotAt d with
  | some ⟨.via v, c⟩ => .next (s.commit d ⟨.via (f v c).dev, (f v c).contrib⟩ (f v c).ret (f v c).events)
  | some ⟨.acia _, _⟩ => .refused (.refusedWord .kindLacksOperation)
  | some ⟨.pia _, _⟩ => .refused (.refusedWord .kindLacksOperation)
  | none => .refused (.refusedWord .noSuchDevice)

/-- An operation of the ACIA. -/
def onAcia (d : DevId) (s : State) (f : Acia → Bool → Effect Acia) : Outcome :=
  match s.slotAt d with
  | some ⟨.acia a, c⟩ => .next (s.commit d ⟨.acia (f a c).dev, (f a c).contrib⟩ (f a c).ret (f a c).events)
  | some ⟨.via _, _⟩ => .refused (.refusedWord .kindLacksOperation)
  | some ⟨.pia _, _⟩ => .refused (.refusedWord .kindLacksOperation)
  | none => .refused (.refusedWord .noSuchDevice)

/-- An operation of the PIA. -/
def onPia (d : DevId) (s : State) (f : Pia → Bool → Effect Pia) : Outcome :=
  match s.slotAt d with
  | some ⟨.pia p, c⟩ => .next (s.commit d ⟨.pia (f p c).dev, (f p c).contrib⟩ (f p c).ret (f p c).events)
  | some ⟨.via _, _⟩ => .refused (.refusedWord .kindLacksOperation)
  | some ⟨.acia _, _⟩ => .refused (.refusedWord .kindLacksOperation)
  | none => .refused (.refusedWord .noSuchDevice)

/-! ### Reset, capture, the line -/

/-- `Reset(d)` on the device: every field at its reset value but the pin levels and the sink attachment (R371,
R61). -/
def Device.reset : Device → Device
  | .via v => .via { viaResetRecord with paIn := v.paIn, pbIn := v.pbIn }
  | .acia a => .acia { aciaResetRecord with sinkAttached := a.sinkAttached }
  | .pia _ => .pia piaReset

/-- `Record(d)`: the fields of R301, R302 or R303 (R300). -/
def Device.record : Device → Record
  | .via v => .via v.toViaRecord
  | .acia a => .acia a.toAciaRecord
  | .pia p => .pia p

/-- The shared IRQ line: the OR of all contributions (R322). -/
def State.irqLine (s : State) : Bool := s.slots.any Slot.contrib

/-- The two handshake outputs `(ca2_out, cb2_out)` of a PIA, outputs of the block (R11, R58). -/
def State.handshakeOutputs (s : State) (d : DevId) : Option (Bool × Bool) :=
  match s.slotAt d with
  | some ⟨.pia p, _⟩ => some (p.ca2Out, p.cb2Out)
  | _ => none

/-! ### The host's next operation -/

/-- The word of the next operation the host issues, if any (R21, R126). -/
def State.fetch (s : State) : Option HopWord := s.trace.head?

/-- The host has issued its next operation: the trace is shorter by one and the index advances by one (R21). -/
def State.advance (s : State) : State := { s with trace := s.trace.tail, index := s.index + 1 }

end Sys2Proof.Machine
end

