-- ==== Sys2Proof/Machine/Acia.lean ====
section
/-! DEFINITION. The operations of the ACIA: register accesses, tick and byte delivery (spec 41_acia_serial.md R204
to R214). -/

namespace Sys2Proof.Machine

/-- `status` after a data read that found a byte: `RDRF`, `PE`, `FE` and `OVRN` cleared (R204). -/
def statusAfterDataRead (st : Byte) : Byte :=
  writeBit (writeBit (writeBit (writeBit st bitRDRF false) bitPE false) bitFE false) bitOVRN false

/-- The transmit path of a data write: the holding byte, `TDRE` cleared, a fresh countdown (R208). -/
def aciaLoadTransmit (c : Config) (a : Acia) (v : Byte) : Acia :=
  { a with txHold := v, status := writeBit a.status bitTDRE false, txCount := ticksPerByte c a.toAciaRecord }

/-- A byte put in the receive holding register: the receive path of a data write (R208), and a delivery that is
stored (R214). -/
def aciaLoadReceive (a : Acia) (v : Byte) : Acia :=
  { a with rxHold := v, status := writeBit a.status bitRDRF true }

/-- The transmitter after a delivering tick: nothing pending, `TDRE` set, the countdown where it ended (R213). -/
def aciaDelivered (a : Acia) : Acia :=
  { a with txCount := a.txCount - 1, txHold := 0x00, status := writeBit a.status bitTDRE true }

/-- `ACIA.RD.DATA` (R204). -/
def execAciaRdData (d : DevId) (s : State) : Outcome :=
  onAcia d s fun a c =>
    if a.rdrf then
      aciaReeval { a with status := statusAfterDataRead a.status, rxHold := 0x00 } (.byte a.rxHold) []
    else .answer a c 0x00

/-- `ACIA.RD.STAT` (R205). -/
def execAciaRdStat (d : DevId) (s : State) : Outcome :=
  onAcia d s fun a c => .answer a c a.status

/-- `ACIA.RD.CTRL` (R206). -/
def execAciaRdCtrl (d : DevId) (s : State) : Outcome :=
  onAcia d s fun a c => .answer a c a.control

/-- `ACIA.RD.TEST` (R207). -/
def execAciaRdTest (d : DevId) (s : State) : Outcome :=
  onAcia d s fun a c => .answer a c a.test

/-- `ACIA.WR.DATA`: the transmit path if `TXEN`, else the receive path if `RXEN`, else nothing (R201, R208). -/
def execAciaWrData (d : DevId) (v : Byte) (s : State) : Outcome :=
  onAcia d s fun a c =>
    if a.txen then aciaReeval (aciaLoadTransmit s.cfg a v) .nothing []
    else if a.rxen then aciaReeval (aciaLoadReceive a v) .nothing []
    else .silent a c

/-- `ACIA.WR.CMD` (R209). -/
def execAciaWrCmd (d : DevId) (v : Byte) (s : State) : Outcome :=
  onAcia d s fun a _ => aciaReeval { a with command := v } .nothing []

/-- `ACIA.WR.CTRL`: the byte and the derived rate and frame; no re-evaluation (R202, R210). -/
def execAciaWrCtrl (d : DevId) (v : Byte) (s : State) : Outcome :=
  onAcia d s fun a c => .silent { a with control := v, baud := baudOf s.cfg v, frame := frameOf s.cfg v } c

/-- `ACIA.WR.TEST` (R211). -/
def execAciaWrTest (d : DevId) (v : Byte) (s : State) : Outcome :=
  onAcia d s fun a c => .silent { a with test := v } c

/-- `ACIA.STEP`: with a transmit byte pending the countdown falls by one, and at or below zero the byte is handed
to the sink (R212, R213). -/
def execAciaStep (d : DevId) (s : State) : Outcome :=
  onAcia d s fun a c =>
    if a.tdre then .silent a c
    else if a.txCount - 1 ≤ 0 then
      aciaReeval (aciaDelivered a) .nothing (emitTx d a.sinkAttached a.txHold)
    else .silent { a with txCount := a.txCount - 1 } c

/-- `ACIA.RXB`: ignored with the receiver off, an overrun with a byte pending, else stored (R214). -/
def execAciaRxb (d : DevId) (b : Byte) (s : State) : Outcome :=
  onAcia d s fun a c =>
    if !a.rxen then .silent a c
    else if a.rdrf then .silent { a with status := writeBit a.status bitOVRN true } c
    else aciaReeval (aciaLoadReceive a b) .nothing []

end Sys2Proof.Machine
end

