-- ==== Sys2Proof/Machine/Pia.lean ====
section
/-! DEFINITION. The operations of the PIA: register accesses, control-line setters and tick (spec
42_pia_parallel.md R252 to R264). -/

namespace Sys2Proof.Machine

/-- `PIA.RD.PB` (R252). -/
def execPiaRdPb (d : DevId) (s : State) : Outcome :=
  onPia d s fun p c => .answer p c p.pb

/-- `PIA.RD.PA` (R253). -/
def execPiaRdPa (d : DevId) (s : State) : Outcome :=
  onPia d s fun p c => .answer p c p.pa

/-- `PIA.RD.CRB` (R254). -/
def execPiaRdCrb (d : DevId) (s : State) : Outcome :=
  onPia d s fun p c => .answer p c (controlView p.irqb p.crb p.cb2 p.cb1)

/-- `PIA.RD.CRA` (R255). -/
def execPiaRdCra (d : DevId) (s : State) : Outcome :=
  onPia d s fun p c => .answer p c (controlView p.irqa p.cra p.ca2 p.ca1)

/-- `PIA.WR.PB` (R256). -/
def execPiaWrPb (d : DevId) (v : Byte) (s : State) : Outcome :=
  onPia d s fun p c => .silent { p with pb := v, cb2Out := handshake p.crb v } c

/-- `PIA.WR.PA` (R257). -/
def execPiaWrPa (d : DevId) (v : Byte) (s : State) : Outcome :=
  onPia d s fun p c => .silent { p with pa := v, ca2Out := handshake p.cra v } c

/-- `PIA.WR.CRB` (R258). -/
def execPiaWrCrb (d : DevId) (v : Byte) (s : State) : Outcome :=
  onPia d s fun p _ =>
    piaReeval { p with crb := v, ddrb := directionOf v, irqb := false, cb2Out := handshake v p.pb }

/-- `PIA.WR.CRA` (R259). -/
def execPiaWrCra (d : DevId) (v : Byte) (s : State) : Outcome :=
  onPia d s fun p _ =>
    piaReeval { p with cra := v, ddra := directionOf v, irqa := false, ca2Out := handshake v p.pa }

/-- Does a change of line 1 set its side's flag? (R260, R262) -/
def line1Interrupts (cr : Byte) : Bool := cr.getLsbD bitLine1Enable

/-- Does a change of line 2 set its side's flag? Its enable must be set and the line in input mode (R261, R263). -/
def line2Interrupts (cr : Byte) : Bool := cr.getLsbD bitLine2Enable && !cr.getLsbD bitLine2Mode

/-- `PIA.LINE.CA1` (R260). -/
def execPiaLineCa1 (d : DevId) (lv : Bool) (s : State) : Outcome :=
  onPia d s fun p c =>
    if lv = p.ca1 then .silent p c
    else piaReeval { p with ca1 := lv, irqa := p.irqa || line1Interrupts p.cra }

/-- `PIA.LINE.CA2` (R261). -/
def execPiaLineCa2 (d : DevId) (lv : Bool) (s : State) : Outcome :=
  onPia d s fun p c =>
    if lv = p.ca2 then .silent p c
    else piaReeval { p with ca2 := lv, irqa := p.irqa || line2Interrupts p.cra }

/-- `PIA.LINE.CB1` (R262). -/
def execPiaLineCb1 (d : DevId) (lv : Bool) (s : State) : Outcome :=
  onPia d s fun p c =>
    if lv = p.cb1 then .silent p c
    else piaReeval { p with cb1 := lv, irqb := p.irqb || line1Interrupts p.crb }

/-- `PIA.LINE.CB2` (R263). -/
def execPiaLineCb2 (d : DevId) (lv : Bool) (s : State) : Outcome :=
  onPia d s fun p c =>
    if lv = p.cb2 then .silent p c
    else piaReeval { p with cb2 := lv, irqb := p.irqb || line2Interrupts p.crb }

/-- `PIA.STEP`: nothing (R264). -/
def execPiaStep (d : DevId) (s : State) : Outcome :=
  onPia d s fun p c => .silent p c

end Sys2Proof.Machine
end

