-- ==== Sys2Proof/Machine/System.lean ====
section
/-! DEFINITION. Signals, saved state and the sink (spec 43_signals_persistence.md R291 to R310). -/

namespace Sys2Proof.Machine

/-- `ANY.SIG.RESET`: `Reset(d)`, and the device's contribution becomes 0 (R291, R371). -/
def execAnySigReset (d : DevId) (s : State) : Outcome :=
  onAny d s fun slot => s.commit d ⟨slot.dev.reset, false⟩ .nothing []

/-- `ACIA.SIG.NMI`: one `Nmi` event, no state of the block changes (R292). -/
def execAciaSigNmi (d : DevId) (s : State) : Outcome :=
  onAcia d s fun a c => ⟨a, c, .nothing, [.nmi d]⟩

/-- `ACIA.SIG.IRQ`: the contribution is forced to 1; the status IRQ bit is not changed (R293). -/
def execAciaSigIrq (d : DevId) (s : State) : Outcome :=
  onAcia d s fun a _ => .silent a true

/-- `ANY.SIG.OTHER`: an unrecognised name is ignored (R294). -/
def execAnySigOther (d : DevId) (s : State) : Outcome :=
  onAny d s fun slot => s.commit d slot .nothing []

/-- `VIA.SIG.NMI`: ignored (R294). -/
def execViaSigNmi (d : DevId) (s : State) : Outcome :=
  onVia d s fun v c => .silent v c

/-- `VIA.SIG.IRQ`: ignored (R294). -/
def execViaSigIrq (d : DevId) (s : State) : Outcome :=
  onVia d s fun v c => .silent v c

/-- `PIA.SIG.NMI`: ignored (R294). -/
def execPiaSigNmi (d : DevId) (s : State) : Outcome :=
  onPia d s fun p c => .silent p c

/-- `PIA.SIG.IRQ`: ignored (R294). -/
def execPiaSigIrq (d : DevId) (s : State) : Outcome :=
  onPia d s fun p c => .silent p c

/-- `ANY.SAVE`: the record is returned and takes the next place of the record table; nothing else changes (R300).
DEDUCED that the table is where it goes (log entry 10). -/
def execAnySave (d : DevId) (s : State) : Outcome :=
  onAny d s fun slot =>
    { s.commit d slot (.record slot.dev.record) [] with records := s.records ++ [slot.dev.record] }

/-- `VIA.LOAD`: the thirteen fields of the record, then re-evaluation; pin levels untouched (R304). -/
def execViaLoad (d : DevId) (n : Byte) (s : State) : Outcome :=
  match s.records[n.toNat]? with
  | some (.via r) => onVia d s fun v _ => viaReeval { v with toViaRecord := r } .nothing
  | some (.acia _) => .refused .recordOfAnotherKind
  | some (.pia _) => .refused .recordOfAnotherKind
  | none => .refused .noRecord

/-- `ACIA.LOAD`: the twelve fields of the record, then re-evaluation, which overwrites `status.IRQ` (R305). -/
def execAciaLoad (d : DevId) (n : Byte) (s : State) : Outcome :=
  match s.records[n.toNat]? with
  | some (.acia r) => onAcia d s fun a _ => aciaReeval { a with toAciaRecord := r } .nothing []
  | some (.via _) => .refused .recordOfAnotherKind
  | some (.pia _) => .refused .recordOfAnotherKind
  | none => .refused .noRecord

/-- `PIA.LOAD`: the fourteen fields of the record, then re-evaluation (R306). -/
def execPiaLoad (d : DevId) (n : Byte) (s : State) : Outcome :=
  match s.records[n.toNat]? with
  | some (.pia r) => onPia d s fun _ _ => piaReeval r
  | some (.via _) => .refused .recordOfAnotherKind
  | some (.acia _) => .refused .recordOfAnotherKind
  | none => .refused .noRecord

/-- `ACIA.SINK` (R310). -/
def execAciaSink (d : DevId) (a : Bool) (s : State) : Outcome :=
  onAcia d s fun x c => .silent { x with sinkAttached := a } c

end Sys2Proof.Machine
end

