-- ==== Sys2Proof/Machine/ViaReads.lean ====
section
/-! DEFINITION. The register reads of the VIA (spec 40_via_timer_port.md R142 to R157). -/

namespace Sys2Proof.Machine

/-- `VIA.RD.ORB` (R142). -/
def execViaRdOrb (d : DevId) (s : State) : Outcome :=
  onVia d s fun v c => .answer v c (combine v.orb v.pbIn v.ddrb)

/-- `VIA.RD.ORA` (R143). -/
def execViaRdOra (d : DevId) (s : State) : Outcome :=
  onVia d s fun v c => .answer v c (combine v.ora v.paIn v.ddra)

/-- `VIA.RD.DDRB` (R144). -/
def execViaRdDdrb (d : DevId) (s : State) : Outcome :=
  onVia d s fun v c => .answer v c v.ddrb

/-- `VIA.RD.DDRA` (R145). -/
def execViaRdDdra (d : DevId) (s : State) : Outcome :=
  onVia d s fun v c => .answer v c v.ddra

/-- `VIA.RD.T1CL`: clears timer 1's flag and re-evaluates (R146). -/
def execViaRdT1cl (d : DevId) (s : State) : Outcome :=
  onVia d s fun v _ => viaReeval { v with ifr := writeBit v.ifr bitT1 false } (.byte (lowByte v.t1c))

/-- `VIA.RD.T1CH` (R147). -/
def execViaRdT1ch (d : DevId) (s : State) : Outcome :=
  onVia d s fun v c => .answer v c (highByte v.t1c)

/-- `VIA.RD.T1LL` (R148). -/
def execViaRdT1ll (d : DevId) (s : State) : Outcome :=
  onVia d s fun v c => .answer v c (lowByte v.t1l)

/-- `VIA.RD.T1LH` (R149). -/
def execViaRdT1lh (d : DevId) (s : State) : Outcome :=
  onVia d s fun v c => .answer v c (highByte v.t1l)

/-- `VIA.RD.T2CL`: clears timer 2's flag and re-evaluates (R150). -/
def execViaRdT2cl (d : DevId) (s : State) : Outcome :=
  onVia d s fun v _ => viaReeval { v with ifr := writeBit v.ifr bitT2 false } (.byte (lowByte v.t2c))

/-- `VIA.RD.T2CH` (R151). -/
def execViaRdT2ch (d : DevId) (s : State) : Outcome :=
  onVia d s fun v c => .answer v c (highByte v.t2c)

/-- `VIA.RD.SR` (R152). -/
def execViaRdSr (d : DevId) (s : State) : Outcome :=
  onVia d s fun v c => .answer v c v.sr

/-- `VIA.RD.ACR` (R153). -/
def execViaRdAcr (d : DevId) (s : State) : Outcome :=
  onVia d s fun v c => .answer v c v.acr

/-- `VIA.RD.PCR` (R154). -/
def execViaRdPcr (d : DevId) (s : State) : Outcome :=
  onVia d s fun v c => .answer v c v.pcr

/-- `VIA.RD.IFR` (R155). -/
def execViaRdIfr (d : DevId) (s : State) : Outcome :=
  onVia d s fun v c => .answer v c (ifrView v.toViaRecord)

/-- `VIA.RD.IER` (R156). -/
def execViaRdIer (d : DevId) (s : State) : Outcome :=
  onVia d s fun v c => .answer v c (ierView v.toViaRecord)

/-- `VIA.RD.ORAX` (R157). -/
def execViaRdOrax (d : DevId) (s : State) : Outcome :=
  onVia d s fun v c => .answer v c (combine v.ora v.paIn v.ddra)

end Sys2Proof.Machine
end

