-- ==== Sys2Proof/Machine/ViaTicks.lean ====
section
/-! DEFINITION. The clock tick and the input pins of the VIA (spec 40_via_timer_port.md R175, R176). -/

namespace Sys2Proof.Machine

/-- `TimerTick(t1c, t1l, 6)` on a VIA and its contribution (R141). -/
def tickTimer1 (mode : TimerMode) (v : Via) (c : Bool) : Via × Bool :=
  match timerTick mode v.t1c v.t1l with
  | (c', false) => ({ v with t1c := c' }, c)
  | (c', true) =>
    let v' : Via := { v with t1c := c', ifr := writeBit v.ifr bitT1 true }
    (v', v'.want)

/-- `TimerTick(t2c, t2l, 5)` on a VIA and its contribution (R141). -/
def tickTimer2 (mode : TimerMode) (v : Via) (c : Bool) : Via × Bool :=
  match timerTick mode v.t2c v.t2l with
  | (c', false) => ({ v with t2c := c' }, c)
  | (c', true) =>
    let v' : Via := { v with t2c := c', ifr := writeBit v.ifr bitT2 true }
    (v', v'.want)

/-- Timer 1, then timer 2 (R175). -/
def tickVia (mode : TimerMode) (v : Via) (c : Bool) : Via × Bool :=
  tickTimer2 mode (tickTimer1 mode v c).1 (tickTimer1 mode v c).2

/-- `VIA.STEP` (R175). -/
def execViaStep (d : DevId) (s : State) : Outcome :=
  onVia d s fun v c => .silent (tickVia s.cfg.timerMode v c).1 (tickVia s.cfg.timerMode v c).2

/-- `VIA.PIN.A` (R176). -/
def execViaPinA (d : DevId) (v : Byte) (s : State) : Outcome :=
  onVia d s fun x c => .silent { x with paIn := v } c

/-- `VIA.PIN.B` (R176). -/
def execViaPinB (d : DevId) (v : Byte) (s : State) : Outcome :=
  onVia d s fun x c => .silent { x with pbIn := v } c

end Sys2Proof.Machine
end

