-- ==== Sys2Proof/Machine/ViaWrites.lean ====
section
/-! DEFINITION. The register writes of the VIA (spec 40_via_timer_port.md R158 to R173). -/

namespace Sys2Proof.Machine

/-- `VIA.WR.ORB` (R158). -/
def execViaWrOrb (d : DevId) (v : Byte) (s : State) : Outcome :=
  onVia d s fun x c => .silent { x with orb := v } c

/-- `VIA.WR.ORA` (R159). -/
def execViaWrOra (d : DevId) (v : Byte) (s : State) : Outcome :=
  onVia d s fun x c => .silent { x with ora := v } c

/-- `VIA.WR.DDRB` (R160). -/
def execViaWrDdrb (d : DevId) (v : Byte) (s : State) : Outcome :=
  onVia d s fun x c => .silent { x with ddrb := v } c

/-- `VIA.WR.DDRA` (R161). -/
def execViaWrDdra (d : DevId) (v : Byte) (s : State) : Outcome :=
  onVia d s fun x c => .silent { x with ddra := v } c

/-- `VIA.WR.T1CL`: the latch's low byte only (R162). -/
def execViaWrT1cl (d : DevId) (v : Byte) (s : State) : Outcome :=
  onVia d s fun x c => .silent { x with t1l := withLow x.t1l v } c

/-- `VIA.WR.T1CH`: the latch's high byte, then the counter from the latch, the flag cleared, re-evaluation (R163). -/
def execViaWrT1ch (d : DevId) (v : Byte) (s : State) : Outcome :=
  onVia d s fun x _ =>
    viaReeval { x with t1l := withHigh x.t1l v, t1c := withHigh x.t1l v, ifr := writeBit x.ifr bitT1 false } .nothing

/-- `VIA.WR.T1LL` (R164). -/
def execViaWrT1ll (d : DevId) (v : Byte) (s : State) : Outcome :=
  onVia d s fun x c => .silent { x with t1l := withLow x.t1l v } c

/-- `VIA.WR.T1LH` (R165). -/
def execViaWrT1lh (d : DevId) (v : Byte) (s : State) : Outcome :=
  onVia d s fun x c => .silent { x with t1l := withHigh x.t1l v } c

/-- `VIA.WR.T2CL` (R166). -/
def execViaWrT2cl (d : DevId) (v : Byte) (s : State) : Outcome :=
  onVia d s fun x c => .silent { x with t2l := withLow x.t2l v } c

/-- `VIA.WR.T2CH` (R167). -/
def execViaWrT2ch (d : DevId) (v : Byte) (s : State) : Outcome :=
  onVia d s fun x _ =>
    viaReeval { x with t2l := withHigh x.t2l v, t2c := withHigh x.t2l v, ifr := writeBit x.ifr bitT2 false } .nothing

/-- `VIA.WR.SR` (R168). -/
def execViaWrSr (d : DevId) (v : Byte) (s : State) : Outcome :=
  onVia d s fun x c => .silent { x with sr := v } c

/-- `VIA.WR.ACR` (R169). -/
def execViaWrAcr (d : DevId) (v : Byte) (s : State) : Outcome :=
  onVia d s fun x c => .silent { x with acr := v } c

/-- `VIA.WR.PCR` (R170). -/
def execViaWrPcr (d : DevId) (v : Byte) (s : State) : Outcome :=
  onVia d s fun x c => .silent { x with pcr := v } c

/-- `VIA.WR.IFR` (R171). -/
def execViaWrIfr (d : DevId) (v : Byte) (s : State) : Outcome :=
  onVia d s fun x _ => viaReeval { x with ifr := ifrAfterWrite x.ifr v } .nothing

/-- `VIA.WR.IER` (R172). -/
def execViaWrIer (d : DevId) (v : Byte) (s : State) : Outcome :=
  onVia d s fun x _ => viaReeval { x with ier := ierAfterWrite x.ier v } .nothing

/-- `VIA.WR.ORAX` (R173). -/
def execViaWrOrax (d : DevId) (v : Byte) (s : State) : Outcome :=
  onVia d s fun x c => .silent { x with ora := v } c

end Sys2Proof.Machine
end

