-- ==== Sys2Proof/Machine/Dispatch.lean ====
section
/-! DEFINITION. The one dispatch: every host operation to its meaning. -/

namespace Sys2Proof.Machine

def exec (i : Instr) (s : State) : Host.Outcome State Fault Refusal :=
  match i with
  | .viaRdOrb d => Sys2Proof.Machine.execViaRdOrb d s
  | .viaRdOra d => Sys2Proof.Machine.execViaRdOra d s
  | .viaRdDdrb d => Sys2Proof.Machine.execViaRdDdrb d s
  | .viaRdDdra d => Sys2Proof.Machine.execViaRdDdra d s
  | .viaRdT1cl d => Sys2Proof.Machine.execViaRdT1cl d s
  | .viaRdT1ch d => Sys2Proof.Machine.execViaRdT1ch d s
  | .viaRdT1ll d => Sys2Proof.Machine.execViaRdT1ll d s
  | .viaRdT1lh d => Sys2Proof.Machine.execViaRdT1lh d s
  | .viaRdT2cl d => Sys2Proof.Machine.execViaRdT2cl d s
  | .viaRdT2ch d => Sys2Proof.Machine.execViaRdT2ch d s
  | .viaRdSr d => Sys2Proof.Machine.execViaRdSr d s
  | .viaRdAcr d => Sys2Proof.Machine.execViaRdAcr d s
  | .viaRdPcr d => Sys2Proof.Machine.execViaRdPcr d s
  | .viaRdIfr d => Sys2Proof.Machine.execViaRdIfr d s
  | .viaRdIer d => Sys2Proof.Machine.execViaRdIer d s
  | .viaRdOrax d => Sys2Proof.Machine.execViaRdOrax d s
  | .viaWrOrb d v => Sys2Proof.Machine.execViaWrOrb d v s
  | .viaWrOra d v => Sys2Proof.Machine.execViaWrOra d v s
  | .viaWrDdrb d v => Sys2Proof.Machine.execViaWrDdrb d v s
  | .viaWrDdra d v => Sys2Proof.Machine.execViaWrDdra d v s
  | .viaWrT1cl d v => Sys2Proof.Machine.execViaWrT1cl d v s
  | .viaWrT1ch d v => Sys2Proof.Machine.execViaWrT1ch d v s
  | .viaWrT1ll d v => Sys2Proof.Machine.execViaWrT1ll d v s
  | .viaWrT1lh d v => Sys2Proof.Machine.execViaWrT1lh d v s
  | .viaWrT2cl d v => Sys2Proof.Machine.execViaWrT2cl d v s
  | .viaWrT2ch d v => Sys2Proof.Machine.execViaWrT2ch d v s
  | .viaWrSr d v => Sys2Proof.Machine.execViaWrSr d v s
  | .viaWrAcr d v => Sys2Proof.Machine.execViaWrAcr d v s
  | .viaWrPcr d v => Sys2Proof.Machine.execViaWrPcr d v s
  | .viaWrIfr d v => Sys2Proof.Machine.execViaWrIfr d v s
  | .viaWrIer d v => Sys2Proof.Machine.execViaWrIer d v s
  | .viaWrOrax d v => Sys2Proof.Machine.execViaWrOrax d v s
  | .viaStep d => Sys2Proof.Machine.execViaStep d s
  | .viaPinA d v => Sys2Proof.Machine.execViaPinA d v s
  | .viaPinB d v => Sys2Proof.Machine.execViaPinB d v s
  | .aciaRdData d => Sys2Proof.Machine.execAciaRdData d s
  | .aciaRdStat d => Sys2Proof.Machine.execAciaRdStat d s
  | .aciaRdCtrl d => Sys2Proof.Machine.execAciaRdCtrl d s
  | .aciaRdTest d => Sys2Proof.Machine.execAciaRdTest d s
  | .aciaWrData d v => Sys2Proof.Machine.execAciaWrData d v s
  | .aciaWrCmd d v => Sys2Proof.Machine.execAciaWrCmd d v s
  | .aciaWrCtrl d v => Sys2Proof.Machine.execAciaWrCtrl d v s
  | .aciaWrTest d v => Sys2Proof.Machine.execAciaWrTest d v s
  | .aciaStep d => Sys2Proof.Machine.execAciaStep d s
  | .aciaRxb d b => Sys2Proof.Machine.execAciaRxb d b s
  | .piaRdPb d => Sys2Proof.Machine.execPiaRdPb d s
  | .piaRdPa d => Sys2Proof.Machine.execPiaRdPa d s
  | .piaRdCrb d => Sys2Proof.Machine.execPiaRdCrb d s
  | .piaRdCra d => Sys2Proof.Machine.execPiaRdCra d s
  | .piaWrPb d v => Sys2Proof.Machine.execPiaWrPb d v s
  | .piaWrPa d v => Sys2Proof.Machine.execPiaWrPa d v s
  | .piaWrCrb d v => Sys2Proof.Machine.execPiaWrCrb d v s
  | .piaWrCra d v => Sys2Proof.Machine.execPiaWrCra d v s
  | .piaLineCa1 d lv => Sys2Proof.Machine.execPiaLineCa1 d lv s
  | .piaLineCa2 d lv => Sys2Proof.Machine.execPiaLineCa2 d lv s
  | .piaLineCb1 d lv => Sys2Proof.Machine.execPiaLineCb1 d lv s
  | .piaLineCb2 d lv => Sys2Proof.Machine.execPiaLineCb2 d lv s
  | .piaStep d => Sys2Proof.Machine.execPiaStep d s
  | .anySigReset d => Sys2Proof.Machine.execAnySigReset d s
  | .aciaSigNmi d => Sys2Proof.Machine.execAciaSigNmi d s
  | .aciaSigIrq d => Sys2Proof.Machine.execAciaSigIrq d s
  | .anySigOther d => Sys2Proof.Machine.execAnySigOther d s
  | .viaSigNmi d => Sys2Proof.Machine.execViaSigNmi d s
  | .viaSigIrq d => Sys2Proof.Machine.execViaSigIrq d s
  | .piaSigNmi d => Sys2Proof.Machine.execPiaSigNmi d s
  | .piaSigIrq d => Sys2Proof.Machine.execPiaSigIrq d s
  | .anySave d => Sys2Proof.Machine.execAnySave d s
  | .viaLoad d n => Sys2Proof.Machine.execViaLoad d n s
  | .aciaLoad d n => Sys2Proof.Machine.execAciaLoad d n s
  | .piaLoad d n => Sys2Proof.Machine.execPiaLoad d n s
  | .aciaSink d a => Sys2Proof.Machine.execAciaSink d a s

end Sys2Proof.Machine
end

