-- ==== Sys2Proof/Machine/Step.lean ====
section
/-! DEFINITION. One step: the host issues the next operation of its trace and the block performs it (spec
00_scope.md R8, R18; 30_encoding.md R122). -/

namespace Sys2Proof.Machine

/-- One step. An invalid configuration is refused (R7). With no operation left to issue nothing happens (R18; log
entry 9). A word the decoder refuses is refused (R123); any other is performed, and the trace advances (R21). -/
def step (s : State) : Host.Outcome State Fault Refusal :=
  if s.cfg.valid then
    match s.fetch with
    | none => .next s
    | some w =>
      match decode s.cfg.kinds w with
      | .ok i => exec i s.advance
      | .error why => .refused (.refusedWord why)
  else .refused .invalidConfig

/-- `s` with the word `w mod 2 ^ nbits` as the next operation the host issues, in place of the one it would have
issued. A program comes from outside the block (log entry 8). -/
def State.withFetchWord (s : State) (nbits w : Nat) : State :=
  { s with trace := BitVec.ofNat 24 (w % 2 ^ nbits) :: s.trace.tail }

end Sys2Proof.Machine
end

