-- ==== Sys2Proof/Machine/Bus.lean ====
section
/-! DEFINITION. The bus side of a register access (spec 20_memory.md R70 to R75): which device an address of the CPU
reaches, the offset that device sees, and the host operation the access is. -/

namespace Sys2Proof.Machine

/-- Does the window of a device hold the address? (R71) -/
def windowHolds (c : DeviceConfig) (addr : Nat) : Bool :=
  decide (c.base ≤ addr) && decide (addr < c.base + c.kind.window)

/-- The offset a device of kind `k` sees: the low 4 or 2 address bits, whatever its base is (R72, R75). -/
def windowOffset (k : Kind) (addr : Nat) : BitVec 4 := BitVec.ofNat 4 (addr &&& (k.window - 1))

/-- The device index whose window holds the address, if any (R71). DESIGN CHOICE (log entry 20): each device has its
one window, and the host repeats none. -/
def deviceAtAddress (c : Config) (addr : Nat) : Option Nat := c.devices.findIdx? (windowHolds · addr)

/-- The device and the offset an address reaches; an address of no device is outside the block (R71). -/
def busTarget (c : Config) (addr : Nat) : Option (DevId × BitVec 4) :=
  match deviceAtAddress c addr with
  | none => none
  | some d => (c.kinds[d]?).map fun k => (BitVec.ofNat 8 d, windowOffset k addr)

/-- `MemRead(addr, 1)` as a host operation (R71). -/
def busReadWord (c : Config) (addr : Nat) : Option HopWord :=
  (busTarget c addr).map fun t => packWord ⟨t.1, OpKind.code .rd, t.2, 0⟩

/-- `MemWrite(addr, 1, v)` as a host operation (R71). -/
def busWriteWord (c : Config) (addr : Nat) (v : Byte) : Option HopWord :=
  (busTarget c addr).map fun t => packWord ⟨t.1, OpKind.code .wr, t.2, v⟩

end Sys2Proof.Machine
end

