-- ==== Sys2Proof/Machine/Trace.lean ====
section
/-! DEFINITION. The trace language of the spec (30_encoding.md R126 to R129): the words of its operations, its
pseudo-operations, and the class of a signal name. -/

namespace Sys2Proof.Machine

/-- One line of a trace: an operation of R126, or a pseudo-operation of R127 (`RESET dev` among them). Offsets are
written as presented on the bus; R128's names are the offsets of R101 to R103. -/
inductive TraceLine where
  | rd (d : DevId) (off : BitVec 4)
  | wr (d : DevId) (off : BitVec 4) (v : Byte)
  | step (d : DevId)
  | sig (d : DevId) (name : List Char)
  | rxb (d : DevId) (b : Byte)
  | line (d : DevId) (number : BitVec 2) (lv : Bool)
  | pin (d : DevId) (portB : Bool) (v : Byte)
  | save (d : DevId)
  | load (d : DevId) (n : Byte)
  | sink (d : DevId) (a : Bool)
  /-- `TICK n`: `n` clock cycles, each one `STEP` of every device in ascending order (R127, R9). -/
  | tick (n : Nat)
  /-- `STEP dev, n`. -/
  | stepTimes (d : DevId) (n : Nat)
  /-- `WR16 dev, off, v`: low byte, then high byte at the next offset (after 0xF: log entry 28). -/
  | wr16 (d : DevId) (off : BitVec 4) (v : Count16)
  /-- `RD16 dev, off`: low byte, then high byte at the next offset (after 0xF: log entry 28); not atomic (R77). -/
  | rd16 (d : DevId) (off : BitVec 4)
  /-- `RESET dev`. -/
  | reset (d : DevId)
  deriving DecidableEq, Repr

/-- The code of a signal name: the whole name, letter case ignored, no trimming and no prefixes (R129, R121). -/
def signalCode (name : List Char) : BitVec 4 :=
  let n := name.map Char.toUpper
  if n = ['R', 'E', 'S', 'E', 'T'] ∨ n = ['R', 'E', 'S'] ∨ n = ['R', 'S', 'T'] then 0x0
  else if n = ['N', 'M', 'I'] then 0x1
  else if n = ['I', 'R', 'Q'] then 0x2
  else 0xF

/-- The word of a register read (R126). -/
def readWord (d : DevId) (off : BitVec 4) : HopWord := packWord ⟨d, OpKind.code .rd, off, 0⟩

/-- The word of a register write (R126). -/
def writeWord (d : DevId) (off : BitVec 4) (v : Byte) : HopWord := packWord ⟨d, OpKind.code .wr, off, v⟩

/-- The word of one tick of a device (R126). -/
def stepWord (d : DevId) : HopWord := packWord ⟨d, OpKind.code .step, 0, 0⟩

/-- The word of a named signal (R126, R129). -/
def signalWord (d : DevId) (code : BitVec 4) : HopWord := packWord ⟨d, OpKind.code .sig, code, 0⟩

/-- One emulated clock cycle of a block of `ndev` devices (R127). -/
def tickWords (ndev : Nat) : List HopWord := (List.range ndev).map fun d => stepWord (BitVec.ofNat 8 d)

/-- The words a line stands for, on a block of `ndev` devices (R126, R127). DESIGN CHOICE (log entry 28): `wr16` and
`rd16` at offset 0xF wrap to offset 0x0 in their second word, for which R127 gives no offset that `arg` can hold. -/
def TraceLine.words (ndev : Nat) : TraceLine → List HopWord
  | .rd d off => [readWord d off]
  | .wr d off v => [writeWord d off v]
  | .step d => [stepWord d]
  | .sig d name => [signalWord d (signalCode name)]
  | .rxb d b => [packWord ⟨d, OpKind.code .rxb, 0, b⟩]
  | .line d number lv => [packWord ⟨d, OpKind.code .line, number.setWidth 4, boolData lv⟩]
  | .pin d portB v => [packWord ⟨d, OpKind.code .pin, if portB then 1 else 0, v⟩]
  | .save d => [packWord ⟨d, OpKind.code .save, 0, 0⟩]
  | .load d n => [packWord ⟨d, OpKind.code .load, 0, n⟩]
  | .sink d a => [packWord ⟨d, OpKind.code .sink, 0, boolData a⟩]
  | .tick n => (List.replicate n (tickWords ndev)).flatten
  | .stepTimes d n => List.replicate n (stepWord d)
  | .wr16 d off v => [writeWord d off (lowByte v), writeWord d (off + 1) (highByte v)]
  | .rd16 d off => [readWord d off, readWord d (off + 1)]
  | .reset d => [signalWord d 0x0]

/-- A trace as words (R126). -/
def traceWords (ndev : Nat) (lines : List TraceLine) : List HopWord := (lines.map (TraceLine.words ndev)).flatten

end Sys2Proof.Machine
end

