-- ==== Sys2Proof/Safety.lean ====
section
/-! DEFINITION. What the statements say of states and runs: the relations between the fields of a state that the
spec states as invariants (10_state.md R26, R50, R59; 60_exceptions.md R328), runs of host operations (00_scope.md
R8), and the states a run can reach (R18). -/

namespace Sys2Proof.Machine

/-! ### Runs -/

/-- The host performs a list of operations, in order; a refused one ends the run (R8, R18). -/
def runOps : List Instr → State → Outcome
  | [], s => .next s
  | i :: rest, s =>
    match exec i s with
    | .next t => runOps rest t
    | .fault r => .fault r
    | .refused r => .refused r

/-- The states the host can reach from power-on by operations. The host also holds the trace and the record table
(R121), so it may replace them at any point. -/
inductive Reachable (c : Config) : State → Prop where
  | start : Reachable c (State.powerOn c)
  | operation (i : Instr) (s t : State) : Reachable c s → exec i s = .next t → Reachable c t
  | host (s : State) (trace : List HopWord) (records : List Record) :
      Reachable c s → Reachable c { s with trace := trace, records := records }

/-! ### The shape of the block -/

/-- The block has the devices its configuration gives it, kind by kind (R6, R26). -/
def State.Shaped (s : State) : Prop := s.slots.map (fun slot => slot.dev.kind) = s.cfg.kinds

/-! ### The IRQ line and the devices' wants (R328) -/

/-- The status IRQ bit of an ACIA mirrors its want; the other kinds have no such bit (R323, R328). -/
def Device.MirrorsWant : Device → Prop
  | .via _ => True
  | .acia a => a.irq = a.want
  | .pia _ => True

/-- R328 for one device: its contribution is its want, or it is an ACIA whose contribution was forced to 1. -/
def Slot.Honest (slot : Slot) : Prop :=
  (slot.contrib = slot.dev.want ∨ slot.dev.kind = .acia ∧ slot.contrib = true) ∧ slot.dev.MirrorsWant

/-- R328 for every device. -/
def State.Honest (s : State) : Prop := ∀ slot ∈ s.slots, slot.Honest

/-! ### Invariants a load can break (R50, R59) -/

/-- The last four clauses of R50: a byte that is not pending is 0, the countdown is not negative, and it is at least
1 while a byte is pending. -/
def AciaRecord.Settled (a : AciaRecord) : Prop :=
  (a.tdre = true → a.txHold = 0) ∧ (a.rdrf = false → a.rxHold = 0) ∧ 0 ≤ a.txCount ∧
    (a.tdre = false → 1 ≤ a.txCount)

/-- The first two pairs of R59: direction registers and handshake outputs follow the stored control and port bytes. -/
def Pia.Settled (p : Pia) : Prop :=
  p.ddra = p.cra &&& 0x0F ∧ p.ddrb = p.crb &&& 0x0F ∧
    p.ca2Out = (p.cra.getLsbD 1 && p.pa.getLsbD 1) ∧ p.cb2Out = (p.crb.getLsbD 1 && p.pb.getLsbD 1)

/-- The invariants of R50 and R59 for one device. -/
def Device.Settled : Device → Prop
  | .via _ => True
  | .acia a => a.Settled
  | .pia p => p.Settled

/-- The invariants of R50 and R59 for every device. -/
def State.Settled (s : State) : Prop := ∀ slot ∈ s.slots, slot.dev.Settled

end Sys2Proof.Machine

namespace Sys2Proof

/-! ### Classes of operations the statements name -/

/-- The load operations (R304 to R306), the only ones that can break `State.Settled` or set a flag in `quirk` mode. -/
def Instr.isLoad : Instr → Bool
  | .viaLoad _ _ => true
  | .aciaLoad _ _ => true
  | .piaLoad _ _ => true
  | _ => false

/-- The register read and write operations, by the format of the bus transaction (R70). -/
def Instr.isRegisterRead (i : Instr) : Bool := (i.row.bits.extractLsb' 12 4 == OpKind.code .rd)

end Sys2Proof
end

