-- ==== Sys2Proof/Certificates/Slice0/Obligations.lean ====
section
/-! DEFINITION. The statements for the provers. Where an equation `exec i s = .next (s with ...)` gives the next state,
its record update names everything that changes: every slot, aggregator bit, event, record and field it does not name
is as in `s`. The block has no memory (spec 10_state.md R24), so no statement speaks of a byte of memory. -/

namespace Sys2Proof.Statements
open Sys2Proof.Machine

/-! ### Terms the statements share -/

/-- At every configuration where device `d` is of kind `k`, the word with this kind code and argument, whatever its
data, decodes to `i d data`. -/
def Decodes (k : Kind) (op arg : BitVec 4) (i : DevId → Byte → Instr) : Prop :=
  ∀ (kinds : List Kind) (d : DevId) (x : Byte), kinds[d.toNat]? = some k →
    decode kinds (packWord ⟨d, op, arg, x⟩) = .ok (i d x)

/-- A VIA register read with no side effect: its encoding and, on every VIA in every state, the byte it returns. -/
def ViaPlainRead (off : BitVec 4) (op : DevId → Instr) (value : Via → Byte) : Prop :=
  Decodes .via 0x0 off (fun d _ => op d) ∧
    ∀ (s : State) (d : DevId) (v : Via) (c : Bool), s.slotAt d = some ⟨.via v, c⟩ →
      exec (op d) s = .next { s with ret := .byte (value v) }

/-- A VIA register write with no effect on flags or on the contribution. -/
def ViaPlainWrite (off : BitVec 4) (op : DevId → Byte → Instr) (update : Via → Byte → Via) : Prop :=
  Decodes .via 0x1 off op ∧
    ∀ (s : State) (d : DevId) (x : Byte) (v : Via) (c : Bool), s.slotAt d = some ⟨.via v, c⟩ →
      exec (op d x) s =
        .next { s with slots := s.slots.set d.toNat ⟨.via (update v x), c⟩, ret := .nothing }

/-- An ACIA register read with no side effect; the two upper offset bits are ignored. -/
def AciaPlainRead (off : BitVec 2) (op : DevId → Instr) (value : Acia → Byte) : Prop :=
  (∀ hi : BitVec 2, Decodes .acia 0x0 (hi ++ off) (fun d _ => op d)) ∧
    ∀ (s : State) (d : DevId) (a : Acia) (c : Bool), s.slotAt d = some ⟨.acia a, c⟩ →
      exec (op d) s = .next { s with ret := .byte (value a) }

/-- A PIA port read; the two upper offset bits are ignored. -/
def PiaPlainRead (off : BitVec 2) (op : DevId → Instr) (value : Pia → Byte) : Prop :=
  (∀ hi : BitVec 2, Decodes .pia 0x0 (hi ++ off) (fun d _ => op d)) ∧
    ∀ (s : State) (d : DevId) (p : Pia) (c : Bool), s.slotAt d = some ⟨.pia p, c⟩ →
      exec (op d) s = .next { s with ret := .byte (value p) }

/-- `st'` is `st` with bit 7 replaced by `irq` and, of the bits 0 to 6, those that `change` gives a value replaced
by it. -/
def StatusBecomes (st st' : Byte) (irq : Bool) (change : Nat → Option Bool) : Prop :=
  st'.getLsbD 7 = irq ∧ ∀ i < 7, st'.getLsbD i = (change i).getD (st.getLsbD i)

/-- The want of an ACIA from its command and status bytes (R325). -/
def aciaWants (command status : Byte) : Bool :=
  (command.getLsbD 3 && status.getLsbD 0) || (command.getLsbD 2 && status.getLsbD 1)

/-- A `LOAD` finds a record of its device's kind; any other operation needs none. -/
def RecordReady (s : State) : Instr → Prop
  | .viaLoad _ n => ∃ r, s.records[n.toNat]? = some (.via r)
  | .aciaLoad _ n => ∃ r, s.records[n.toNat]? = some (.acia r)
  | .piaLoad _ n => ∃ r, s.records[n.toNat]? = some (.pia r)
  | _ => True

/-- The operations of the table of R327: the only ones that may write an aggregator bit. -/
def MayWriteAggregator : Instr → Prop
  | .viaRdT1cl _ => True
  | .viaRdT2cl _ => True
  | .viaWrT1ch _ _ => True
  | .viaWrT2ch _ _ => True
  | .viaWrIfr _ _ => True
  | .viaWrIer _ _ => True
  | .viaStep _ => True
  | .aciaRdData _ => True
  | .aciaWrData _ _ => True
  | .aciaWrCmd _ _ => True
  | .aciaRxb _ _ => True
  | .aciaStep _ => True
  | .aciaSigIrq _ => True
  | .piaWrCra _ _ => True
  | .piaWrCrb _ _ => True
  | .piaLineCa1 _ _ => True
  | .piaLineCa2 _ _ => True
  | .piaLineCb1 _ _ => True
  | .piaLineCb2 _ _ => True
  | .viaLoad _ _ => True
  | .aciaLoad _ _ => True
  | .piaLoad _ _ => True
  | .anySigReset _ => True
  | _ => False

/-- The ticks (R395). -/
def IsTick : Instr → Prop
  | .viaStep _ => True
  | .aciaStep _ => True
  | .piaStep _ => True
  | _ => False

end Sys2Proof.Statements

section
open Sys2Proof
open Sys2Proof.Machine
open Sys2Proof.Statements

/-! ### Encoding -/

/-- Words the spec writes out (95_test_vectors.md B1) decode to the operations it says, or are refused. -/
def Obligations.SampleWordsDecode : Prop :=
  decode Config.reference.kinds 0x000D00 = .ok (.viaRdIfr 0) ∧
  decode Config.reference.kinds 0x0004FF = .ok (.viaRdT1cl 0) ∧
  decode Config.reference.kinds 0x001EC0 = .ok (.viaWrIer 0 0xC0) ∧
  decode Config.reference.kinds 0x010500 = .ok (.aciaRdStat 1) ∧
  decode Config.reference.kinds 0x011E24 = .ok (.aciaWrCtrl 1 0x24) ∧
  decode Config.reference.kinds 0x020700 = .ok (.piaRdCra 2) ∧
  decode Config.reference.kinds 0x025201 = .ok (.piaLineCb1 2 true) ∧
  decode Config.reference.kinds 0x006155 = .ok (.viaPinB 0 0x55) ∧
  decode Config.reference.kinds 0x028003 = .ok (.piaLoad 2 3) ∧
  decode Config.reference.kinds 0x030000 = .error .noSuchDevice ∧
  decode Config.reference.kinds 0x013300 = .error .reservedSignal

/-- Decoding the canonical word of any well-formed operation gives the operation back, operands and all. -/
def Obligations.DecodeEncodeAgree : Prop :=
  ∀ (kinds : List Kind) (i : Instr), i.WellFormed kinds → decode kinds (encode i) = .ok i

/-- The decoder and spec/opcode_table.json agree: a decoded operation is well-formed, names the device of its word
and fits its row; and a word that fits the row of an operation its device has decodes to an operation of that row. -/
def Obligations.DecoderAgreesWithOpcodeTable : Prop :=
  (∀ (kinds : List Kind) (w : HopWord) (i : Instr), decode kinds w = .ok i →
    i.WellFormed kinds ∧ i.dev = (unpackWord w).dev ∧ i.row.fits w = true) ∧
  ∀ (kinds : List Kind) (w : HopWord) (i : Instr), i.WellFormed kinds → i.dev = (unpackWord w).dev →
    i.row.fits w = true → ∃ j, decode kinds w = .ok j ∧ j.row = i.row

/-- R123: exactly the reserved and ill-addressed words are refused, and a refused word has no effect: the step has no
next state. -/
def Obligations.RefusedWordsAreTheReservedOnes : Prop :=
  (∀ (kinds : List Kind) (f : WordFields),
    (∃ why, decode kinds (packWord f) = .error why) ↔
      kinds[f.dev.toNat]? = none ∨ 0xA ≤ f.kind.toNat ∨
      (f.kind = 0x3 ∧ 0x3 ≤ f.arg.toNat ∧ f.arg.toNat ≤ 0xE) ∨
      (f.kind = 0x4 ∧ kinds[f.dev.toNat]? ≠ some .acia) ∨
      (f.kind = 0x5 ∧ (kinds[f.dev.toNat]? ≠ some .pia ∨ 0x4 ≤ f.arg.toNat ∨ 0x2 ≤ f.data.toNat)) ∨
      (f.kind = 0x6 ∧ (kinds[f.dev.toNat]? ≠ some .via ∨ 0x2 ≤ f.arg.toNat)) ∨
      (f.kind = 0x9 ∧ (kinds[f.dev.toNat]? ≠ some .acia ∨ 0x2 ≤ f.data.toNat))) ∧
  ∀ (s : State) (w : HopWord) (why : Reject), s.cfg.valid = true → s.fetch = some w →
    decode s.cfg.kinds w = .error why → step s = .refused (.refusedWord why)

/-! ### The step -/

/-- A step performs the decoded operation on the state in which the host has issued it: the trace is shorter by one
and the index advances by one. That the trace stands in the state is the model's choice (log entry 8). -/
def Obligations.StepRunsDecodedOperation : Prop :=
  ∀ (s : State) (w : HopWord) (rest : List HopWord) (i : Instr), s.cfg.valid = true → s.trace = w :: rest →
    decode s.cfg.kinds w = .ok i →
      step s = exec i { s with trace := rest, index := s.index + 1 }

/-- R7: an invalid configuration is refused, whatever the host issues. Which configurations are invalid is read from
R6 and R7 by inference (log entry 15). -/
def Obligations.StepRefusesInvalidConfiguration : Prop :=
  ∀ s : State, s.cfg.valid = false → step s = .refused .invalidConfig

/-- With no operation left to issue, a step changes nothing. That such a step answers the same state is the model's
choice (log entry 9); R18 says only that nothing happens to the state. -/
def Obligations.StepIdlesAtEndOfTrace : Prop :=
  ∀ s : State, s.cfg.valid = true → s.trace = [] → step s = .next s

/-! ### Power-on and reset -/

/-- The power-on state of any configuration: every device at its reset values with the configured pin levels and no
sink, every contribution 0, so the line is not asserted, and no event. -/
def Obligations.PowerOnState : Prop :=
  ∀ c : Config,
    (State.powerOn c).slots.length = c.ndev ∧ (State.powerOn c).output = [] ∧ (State.powerOn c).irqLine = false ∧
    ∀ (d : DevId) (dc : DeviceConfig), c.devices[d.toNat]? = some dc →
      (dc.kind = .via → (State.powerOn c).slotAt d = some
        ⟨.via { ora := 0, orb := 0, ddra := 0, ddrb := 0, t1c := 0, t1l := 0, t2c := 0, t2l := 0, sr := 0, acr := 0,
                pcr := 0, ifr := 0, ier := 0, paIn := dc.pinInitA, pbIn := dc.pinInitB }, false⟩) ∧
      (dc.kind = .acia → (State.powerOn c).slotAt d = some
        ⟨.acia { status := 0x0E, command := 0, control := 0, test := 0, txHold := 0, rxHold := 0, baud := 0,
                 frame := ⟨0, 0, false, false⟩, txCount := 0, sinkAttached := false }, false⟩) ∧
      (dc.kind = .pia → (State.powerOn c).slotAt d = some
        ⟨.pia { pa := 0, pb := 0, ddra := 0, ddrb := 0, cra := 0, crb := 0, ca1 := false, ca2 := false, cb1 := false,
                cb2 := false, irqa := false, irqb := false, ca2Out := false, cb2Out := false }, false⟩)

/-- `SIG RESET` on each kind: every field at its reset value but the pin levels and the sink attachment, the device's
contribution 0, no other device touched, no event. -/
def Obligations.ResetSignalRestoresResetValues : Prop :=
  (∀ k : Kind, Decodes k 0x3 0x0 (fun d _ => .anySigReset d)) ∧
  (∀ (s : State) (d : DevId) (v : Via) (c : Bool), s.slotAt d = some ⟨.via v, c⟩ →
    exec (.anySigReset d) s = .next { s with
      slots := s.slots.set d.toNat
        ⟨.via { ora := 0, orb := 0, ddra := 0, ddrb := 0, t1c := 0, t1l := 0, t2c := 0, t2l := 0, sr := 0, acr := 0,
                pcr := 0, ifr := 0, ier := 0, paIn := v.paIn, pbIn := v.pbIn }, false⟩,
      ret := .nothing }) ∧
  (∀ (s : State) (d : DevId) (a : Acia) (c : Bool), s.slotAt d = some ⟨.acia a, c⟩ →
    exec (.anySigReset d) s = .next { s with
      slots := s.slots.set d.toNat
        ⟨.acia { status := 0x0E, command := 0, control := 0, test := 0, txHold := 0, rxHold := 0, baud := 0,
                 frame := ⟨0, 0, false, false⟩, txCount := 0, sinkAttached := a.sinkAttached }, false⟩,
      ret := .nothing }) ∧
  (∀ (s : State) (d : DevId) (p : Pia) (c : Bool), s.slotAt d = some ⟨.pia p, c⟩ →
    exec (.anySigReset d) s = .next { s with
      slots := s.slots.set d.toNat
        ⟨.pia { pa := 0, pb := 0, ddra := 0, ddrb := 0, cra := 0, crb := 0, ca1 := false, ca2 := false, cb1 := false,
                cb2 := false, irqa := false, irqb := false, ca2Out := false, cb2Out := false }, false⟩,
      ret := .nothing })

/-- R373: a second reset changes nothing. -/
def Obligations.ResetIsIdempotent : Prop :=
  ∀ (s t : State) (d : DevId), exec (.anySigReset d) s = .next t → exec (.anySigReset d) t = .next t

/-! ### VIA -/

/-- Port reads: the latch bit where the direction is output, else the pin. -/
def Obligations.ViaPortReadsCombineLatchAndPins : Prop :=
  ViaPlainRead 0x0 .viaRdOrb (fun v => (v.orb &&& v.ddrb) ||| (v.pbIn &&& ~~~v.ddrb)) ∧
  ViaPlainRead 0x1 .viaRdOra (fun v => (v.ora &&& v.ddra) ||| (v.paIn &&& ~~~v.ddra)) ∧
  ViaPlainRead 0xF .viaRdOrax (fun v => (v.ora &&& v.ddra) ||| (v.paIn &&& ~~~v.ddra))

/-- The nine VIA reads that return a stored byte or a byte of a counter or latch, with no side effect. -/
def Obligations.ViaStoredByteReads : Prop :=
  ViaPlainRead 0x2 .viaRdDdrb (fun v => v.ddrb) ∧
  ViaPlainRead 0x3 .viaRdDdra (fun v => v.ddra) ∧
  ViaPlainRead 0x5 .viaRdT1ch (fun v => v.t1c.extractLsb' 8 8) ∧
  ViaPlainRead 0x6 .viaRdT1ll (fun v => v.t1l.extractLsb' 0 8) ∧
  ViaPlainRead 0x7 .viaRdT1lh (fun v => v.t1l.extractLsb' 8 8) ∧
  ViaPlainRead 0x9 .viaRdT2ch (fun v => v.t2c.extractLsb' 8 8) ∧
  ViaPlainRead 0xA .viaRdSr (fun v => v.sr) ∧
  ViaPlainRead 0xB .viaRdAcr (fun v => v.acr) ∧
  ViaPlainRead 0xC .viaRdPcr (fun v => v.pcr)

/-- Reads of IFR and IER: bits 6 to 0 as stored; bit 7 of IFR is 1 iff some flag is set and enabled, bit 7 of IER is
1. -/
def Obligations.ViaInterruptRegisterReads : Prop :=
  Decodes .via 0x0 0xD (fun d _ => .viaRdIfr d) ∧ Decodes .via 0x0 0xE (fun d _ => .viaRdIer d) ∧
  ∀ (s : State) (d : DevId) (v : Via) (c : Bool), s.slotAt d = some ⟨.via v, c⟩ →
    (∃ b : Byte, exec (.viaRdIfr d) s = .next { s with ret := .byte b } ∧
      (∀ i < 7, b.getLsbD i = v.ifr.getLsbD i) ∧
      (b.getLsbD 7 = true ↔ ∃ i < 7, v.ifr.getLsbD i = true ∧ v.ier.getLsbD i = true)) ∧
    (∃ b : Byte, exec (.viaRdIer d) s = .next { s with ret := .byte b } ∧
      (∀ i < 7, b.getLsbD i = v.ier.getLsbD i) ∧ b.getLsbD 7 = true)

/-- Reads of a timer's low counter byte clear that timer's flag, re-evaluate, and return the byte. -/
def Obligations.ViaLowCounterReadsClearTheFlag : Prop :=
  Decodes .via 0x0 0x4 (fun d _ => .viaRdT1cl d) ∧ Decodes .via 0x0 0x8 (fun d _ => .viaRdT2cl d) ∧
  ∀ (s : State) (d : DevId) (v : Via) (c : Bool), s.slotAt d = some ⟨.via v, c⟩ →
    (∃ f : Flags7, (∀ i < 7, f.getLsbD i = (v.ifr.getLsbD i && decide (i ≠ 6))) ∧
      exec (.viaRdT1cl d) s = .next { s with
        slots := s.slots.set d.toNat ⟨.via { v with ifr := f }, (f &&& v.ier) != 0⟩,
        ret := .byte (v.t1c.extractLsb' 0 8) }) ∧
    (∃ f : Flags7, (∀ i < 7, f.getLsbD i = (v.ifr.getLsbD i && decide (i ≠ 5))) ∧
      exec (.viaRdT2cl d) s = .next { s with
        slots := s.slots.set d.toNat ⟨.via { v with ifr := f }, (f &&& v.ier) != 0⟩,
        ret := .byte (v.t2c.extractLsb' 0 8) })

/-- The eight VIA writes that store the byte verbatim and do nothing else. -/
def Obligations.ViaPlainWritesStoreTheByte : Prop :=
  ViaPlainWrite 0x0 .viaWrOrb (fun v x => { v with orb := x }) ∧
  ViaPlainWrite 0x1 .viaWrOra (fun v x => { v with ora := x }) ∧
  ViaPlainWrite 0x2 .viaWrDdrb (fun v x => { v with ddrb := x }) ∧
  ViaPlainWrite 0x3 .viaWrDdra (fun v x => { v with ddra := x }) ∧
  ViaPlainWrite 0xA .viaWrSr (fun v x => { v with sr := x }) ∧
  ViaPlainWrite 0xB .viaWrAcr (fun v x => { v with acr := x }) ∧
  ViaPlainWrite 0xC .viaWrPcr (fun v x => { v with pcr := x }) ∧
  ViaPlainWrite 0xF .viaWrOrax (fun v x => { v with ora := x })

/-- The four VIA writes that replace one byte of a latch and touch neither the counter nor the flag. -/
def Obligations.ViaLatchByteWrites : Prop :=
  ViaPlainWrite 0x4 .viaWrT1cl (fun v x => { v with t1l := v.t1l.extractLsb' 8 8 ++ x }) ∧
  ViaPlainWrite 0x6 .viaWrT1ll (fun v x => { v with t1l := v.t1l.extractLsb' 8 8 ++ x }) ∧
  ViaPlainWrite 0x7 .viaWrT1lh (fun v x => { v with t1l := x ++ v.t1l.extractLsb' 0 8 }) ∧
  ViaPlainWrite 0x8 .viaWrT2cl (fun v x => { v with t2l := v.t2l.extractLsb' 8 8 ++ x })

/-- Writes of a timer's high counter byte: the latch's high byte, then the counter from the whole latch, the flag
cleared, re-evaluation. -/
def Obligations.ViaHighCounterWritesLoadAndClear : Prop :=
  Decodes .via 0x1 0x5 .viaWrT1ch ∧ Decodes .via 0x1 0x9 .viaWrT2ch ∧
  ∀ (s : State) (d : DevId) (x : Byte) (v : Via) (c : Bool), s.slotAt d = some ⟨.via v, c⟩ →
    (∃ f : Flags7, (∀ i < 7, f.getLsbD i = (v.ifr.getLsbD i && decide (i ≠ 6))) ∧
      exec (.viaWrT1ch d x) s = .next { s with
        slots := s.slots.set d.toNat
          ⟨.via { v with t1l := x ++ v.t1l.extractLsb' 0 8, t1c := x ++ v.t1l.extractLsb' 0 8, ifr := f },
            (f &&& v.ier) != 0⟩,
        ret := .nothing }) ∧
    (∃ f : Flags7, (∀ i < 7, f.getLsbD i = (v.ifr.getLsbD i && decide (i ≠ 5))) ∧
      exec (.viaWrT2ch d x) s = .next { s with
        slots := s.slots.set d.toNat
          ⟨.via { v with t2l := x ++ v.t2l.extractLsb' 0 8, t2c := x ++ v.t2l.extractLsb' 0 8, ifr := f },
            (f &&& v.ier) != 0⟩,
        ret := .nothing })

/-- R171: a write of IFR clears exactly the flags whose bits are 1 in the low 7 bits written, and re-evaluates. -/
def Obligations.ViaIfrWriteClearsTheWrittenFlags : Prop :=
  Decodes .via 0x1 0xD .viaWrIfr ∧
  ∀ (s : State) (d : DevId) (x : Byte) (v : Via) (c : Bool), s.slotAt d = some ⟨.via v, c⟩ →
    ∃ f : Flags7, (∀ i < 7, f.getLsbD i = (v.ifr.getLsbD i && !x.getLsbD i)) ∧
      exec (.viaWrIfr d x) s = .next { s with
        slots := s.slots.set d.toNat ⟨.via { v with ifr := f }, (f &&& v.ier) != 0⟩,
        ret := .nothing }

/-- R172: a write of IER sets (bit 7 = 1) or clears (bit 7 = 0) exactly the enables whose bits are 1 in the low 7 bits
written, and re-evaluates. -/
def Obligations.ViaIerWriteSetsOrClearsEnables : Prop :=
  Decodes .via 0x1 0xE .viaWrIer ∧
  ∀ (s : State) (d : DevId) (x : Byte) (v : Via) (c : Bool), s.slotAt d = some ⟨.via v, c⟩ →
    ∃ e : Flags7,
      (∀ i < 7, e.getLsbD i =
        if x.getLsbD 7 = true then v.ier.getLsbD i || x.getLsbD i else v.ier.getLsbD i && !x.getLsbD i) ∧
      exec (.viaWrIer d x) s = .next { s with
        slots := s.slots.set d.toNat ⟨.via { v with ier := e }, (v.ifr &&& e) != 0⟩,
        ret := .nothing }

/-- `VIA.STEP` (R175, R141). In `quirk` mode, the normative one, each counter falls by one and stays at 0: no flag, no
reload, no re-evaluation. In `wrap` mode a counter at 0 reloads from its latch and sets its flag, any other falls by
one; if a flag was set the contribution is re-evaluated from the flags after the step. -/
def Obligations.ViaStepTicksBothTimers : Prop :=
  (∀ arg : BitVec 4, Decodes .via 0x2 arg (fun d _ => .viaStep d)) ∧
  (∀ (s : State) (d : DevId) (v : Via) (c : Bool), s.cfg.timerMode = .quirk → s.slotAt d = some ⟨.via v, c⟩ →
    exec (.viaStep d) s = .next { s with
      slots := s.slots.set d.toNat
        ⟨.via { v with t1c := if v.t1c = 0 then 0 else v.t1c - 1, t2c := if v.t2c = 0 then 0 else v.t2c - 1 }, c⟩,
      ret := .nothing }) ∧
  (∀ (s : State) (d : DevId) (v : Via) (c : Bool), s.cfg.timerMode = .wrap → s.slotAt d = some ⟨.via v, c⟩ →
    ∃ f : Flags7,
      (∀ i < 7, f.getLsbD i =
        (v.ifr.getLsbD i || (decide (i = 6) && v.t1c == 0) || (decide (i = 5) && v.t2c == 0))) ∧
      exec (.viaStep d) s = .next { s with
        slots := s.slots.set d.toNat
          ⟨.via { v with
              t1c := if v.t1c = 0 then v.t1l else v.t1c - 1
              t2c := if v.t2c = 0 then v.t2l else v.t2c - 1
              ifr := f },
            if v.t1c = 0 ∨ v.t2c = 0 then (f &&& v.ier) != 0 else c⟩,
        ret := .nothing })

/-- `PIN` drives the input levels of one port and changes nothing else. -/
def Obligations.ViaPinsAreDrivenFromOutside : Prop :=
  Decodes .via 0x6 0x0 .viaPinA ∧ Decodes .via 0x6 0x1 .viaPinB ∧
  ∀ (s : State) (d : DevId) (x : Byte) (v : Via) (c : Bool), s.slotAt d = some ⟨.via v, c⟩ →
    exec (.viaPinA d x) s =
      .next { s with slots := s.slots.set d.toNat ⟨.via { v with paIn := x }, c⟩, ret := .nothing } ∧
    exec (.viaPinB d x) s =
      .next { s with slots := s.slots.set d.toNat ⟨.via { v with pbIn := x }, c⟩, ret := .nothing }

/-- In `quirk` mode a VIA counts down one per tick and stops at 0: after `n` ticks a counter holds its value less `n`,
or 0, and nothing else of the device changed. -/
def Obligations.ViaCountersReachZeroAndStay : Prop :=
  ∀ (n : Nat) (s : State) (d : DevId) (v : Via) (c : Bool), s.cfg.timerMode = .quirk →
    s.slotAt d = some ⟨.via v, c⟩ →
      ∃ t, runOps (List.replicate n (.viaStep d)) s = .next t ∧
        t.slotAt d = some ⟨.via { v with
          t1c := BitVec.ofNat 16 (v.t1c.toNat - n)
          t2c := BitVec.ofNat 16 (v.t2c.toNat - n) }, c⟩ ∧
        t.irqLine = s.irqLine

/-- In `wrap` mode a timer 1 just loaded from its latch `L` counts down without its flag for `L` ticks, and on tick
`L + 1` sets its flag, re-evaluates, and holds `L` again. -/
def Obligations.ViaTimerFiresAfterLatchPlusOneTicks : Prop :=
  ∀ (s : State) (d : DevId) (v : Via) (c : Bool), s.cfg.timerMode = .wrap → s.slotAt d = some ⟨.via v, c⟩ →
    v.t1c = v.t1l → v.ifr.getLsbD 6 = false →
      (∀ n ≤ v.t1l.toNat, ∃ t v' c', runOps (List.replicate n (.viaStep d)) s = .next t ∧
        t.slotAt d = some ⟨.via v', c'⟩ ∧ v'.t1c.toNat = v.t1l.toNat - n ∧ v'.t1l = v.t1l ∧
        v'.ifr.getLsbD 6 = false) ∧
      (∃ t v' c', runOps (List.replicate (v.t1l.toNat + 1) (.viaStep d)) s = .next t ∧
        t.slotAt d = some ⟨.via v', c'⟩ ∧ v'.t1c = v.t1l ∧ v'.t1l = v.t1l ∧ v'.ifr.getLsbD 6 = true ∧
        c' = ((v'.ifr &&& v'.ier) != 0))

/-- In `quirk` mode no operation but a load sets any VIA flag. -/
def Obligations.QuirkModeFlagsOnlyLoadsCanSet : Prop :=
  ∀ (i : Instr) (s t : State) (e : DevId) (v v' : Via) (c c' : Bool), s.cfg.timerMode = .quirk →
    i.isLoad = false → exec i s = .next t → s.slotAt e = some ⟨.via v, c⟩ → t.slotAt e = some ⟨.via v', c'⟩ →
      ∀ k < 7, v'.ifr.getLsbD k = true → v.ifr.getLsbD k = true

/-! ### ACIA -/

/-- R204: a data read with a byte pending returns it, clears `RDRF`, `FE`, `OVRN`, `PE` and the holding byte, and
re-evaluates; with none pending it returns 0 and changes nothing. -/
def Obligations.AciaDataReadConsumesThePendingByte : Prop :=
  (∀ hi : BitVec 2, Decodes .acia 0x0 (hi ++ 0#2) (fun d _ => .aciaRdData d)) ∧
  ∀ (s : State) (d : DevId) (a : Acia) (c : Bool), s.slotAt d = some ⟨.acia a, c⟩ →
    (a.status.getLsbD 0 = true →
      ∃ st : Byte,
        StatusBecomes a.status st (a.command.getLsbD 2 && a.status.getLsbD 1)
          (fun i => if i = 0 ∨ i = 4 ∨ i = 5 ∨ i = 6 then some false else none) ∧
        exec (.aciaRdData d) s = .next { s with
          slots := s.slots.set d.toNat
            ⟨.acia { a with status := st, rxHold := 0 }, a.command.getLsbD 2 && a.status.getLsbD 1⟩,
          ret := .byte a.rxHold }) ∧
    (a.status.getLsbD 0 = false → exec (.aciaRdData d) s = .next { s with ret := .byte 0 })

/-- The other ACIA reads return the stored byte and change nothing. -/
def Obligations.AciaStoredByteReads : Prop :=
  AciaPlainRead 1 .aciaRdStat (fun a => a.status) ∧
  AciaPlainRead 2 .aciaRdCtrl (fun a => a.control) ∧
  AciaPlainRead 3 .aciaRdTest (fun a => a.test)

/-- R201, R208: a data write takes the transmit path if `TXEN`, else the receive path if `RXEN`, else does nothing. -/
def Obligations.AciaDataWriteChoosesItsPath : Prop :=
  (∀ hi : BitVec 2, Decodes .acia 0x1 (hi ++ 0#2) .aciaWrData) ∧
  ∀ (s : State) (d : DevId) (x : Byte) (a : Acia) (c : Bool), s.slotAt d = some ⟨.acia a, c⟩ →
    (a.command.getLsbD 5 = true →
      ∃ st : Byte,
        StatusBecomes a.status st (a.command.getLsbD 3 && a.status.getLsbD 0)
          (fun i => if i = 1 then some false else none) ∧
        exec (.aciaWrData d x) s = .next { s with
          slots := s.slots.set d.toNat
            ⟨.acia { a with status := st, txHold := x, txCount := ticksPerByte s.cfg a.toAciaRecord },
              a.command.getLsbD 3 && a.status.getLsbD 0⟩,
          ret := .nothing }) ∧
    (a.command.getLsbD 5 = false → a.command.getLsbD 0 = true →
      ∃ st : Byte,
        StatusBecomes a.status st (a.command.getLsbD 3 || (a.command.getLsbD 2 && a.status.getLsbD 1))
          (fun i => if i = 0 then some true else none) ∧
        exec (.aciaWrData d x) s = .next { s with
          slots := s.slots.set d.toNat
            ⟨.acia { a with status := st, rxHold := x },
              a.command.getLsbD 3 || (a.command.getLsbD 2 && a.status.getLsbD 1)⟩,
          ret := .nothing }) ∧
    (a.command.getLsbD 5 = false → a.command.getLsbD 0 = false →
      exec (.aciaWrData d x) s = .next { s with ret := .nothing })

/-- R209: a command write stores the byte and re-evaluates. -/
def Obligations.AciaCommandWriteReevaluates : Prop :=
  (∀ hi : BitVec 2, Decodes .acia 0x1 (hi ++ 1#2) .aciaWrCmd) ∧
  ∀ (s : State) (d : DevId) (x : Byte) (a : Acia) (c : Bool), s.slotAt d = some ⟨.acia a, c⟩ →
    ∃ st : Byte, StatusBecomes a.status st (aciaWants x a.status) (fun _ => none) ∧
      exec (.aciaWrCmd d x) s = .next { s with
        slots := s.slots.set d.toNat ⟨.acia { a with command := x, status := st }, aciaWants x a.status⟩,
        ret := .nothing }

/-- R210 with R202, R109 and R110: a control write stores the byte and derives the rate from `BAUD_TABLE[v[3:0]]` and
the frame from `FORMAT_TABLE[v[6:4]]`, 8N1 for an unrecognised code; nothing else changes. -/
def Obligations.AciaControlWriteDerivesRateAndFrame : Prop :=
  (∀ hi : BitVec 2, Decodes .acia 0x1 (hi ++ 2#2) .aciaWrCtrl) ∧
  ∀ (s : State) (d : DevId) (x : Byte) (a : Acia) (c : Bool), s.slotAt d = some ⟨.acia a, c⟩ →
    ∃ (b : Int) (f : Option Frame), s.cfg.baudTable[x.toNat % 16]? = some b ∧
      s.cfg.formatTable[x.toNat / 16 % 8]? = some f ∧
      exec (.aciaWrCtrl d x) s = .next { s with
        slots := s.slots.set d.toNat
          ⟨.acia { a with control := x, baud := b, frame := f.getD ⟨8, 1, false, false⟩ }, c⟩,
        ret := .nothing }

/-- R211 and R310: a test write stores the byte; `SINK` attaches or detaches; nothing else changes. -/
def Obligations.AciaTestWriteAndSinkAttachment : Prop :=
  (∀ hi : BitVec 2, Decodes .acia 0x1 (hi ++ 3#2) .aciaWrTest) ∧
  (∀ (kinds : List Kind) (d : DevId) (arg : BitVec 4), kinds[d.toNat]? = some .acia →
    decode kinds (packWord ⟨d, 0x9, arg, 0x01⟩) = .ok (.aciaSink d true) ∧
    decode kinds (packWord ⟨d, 0x9, arg, 0x00⟩) = .ok (.aciaSink d false)) ∧
  ∀ (s : State) (d : DevId) (x : Byte) (b : Bool) (a : Acia) (c : Bool), s.slotAt d = some ⟨.acia a, c⟩ →
    exec (.aciaWrTest d x) s =
      .next { s with slots := s.slots.set d.toNat ⟨.acia { a with test := x }, c⟩, ret := .nothing } ∧
    exec (.aciaSink d b) s =
      .next { s with slots := s.slots.set d.toNat ⟨.acia { a with sinkAttached := b }, c⟩, ret := .nothing }

/-- R203: the number of ticks a byte takes, from the stored rate and frame, and that it is in `1 .. MAX_TICKS`
whenever `MAX_TICKS` is positive. -/
def Obligations.TicksPerByteFormulaAndRange : Prop :=
  ∀ (c : Config) (a : AciaRecord),
    (a.baud ≤ 0 → ticksPerByte c a = 1) ∧
    (∀ perBit framed : Int, 0 < a.baud → perBit * a.baud ≤ c.clockHz → (c.clockHz : Int) < (perBit + 1) * a.baud →
      framed = 1 + a.frame.dataBits + (if a.frame.parityEn then 1 else 0) + a.frame.stopBits →
      ticksPerByte c a = min (c.maxTicks : Int) (max 1 perBit * max 1 framed)) ∧
    (1 ≤ c.maxTicks → 1 ≤ ticksPerByte c a ∧ ticksPerByte c a ≤ c.maxTicks)

/-- R213 with R212: with nothing pending a tick changes nothing; with a byte pending the countdown falls by one, and
at or below zero the byte goes to the sink if one is attached, the holding byte is cleared, `TDRE` is set and the
contribution re-evaluated. -/
def Obligations.AciaStepCountsDownAndDelivers : Prop :=
  (∀ arg : BitVec 4, Decodes .acia 0x2 arg (fun d _ => .aciaStep d)) ∧
  ∀ (s : State) (d : DevId) (a : Acia) (c : Bool), s.slotAt d = some ⟨.acia a, c⟩ →
    (a.status.getLsbD 1 = true → exec (.aciaStep d) s = .next { s with ret := .nothing }) ∧
    (a.status.getLsbD 1 = false → 0 < a.txCount - 1 →
      exec (.aciaStep d) s = .next { s with
        slots := s.slots.set d.toNat ⟨.acia { a with txCount := a.txCount - 1 }, c⟩, ret := .nothing }) ∧
    (a.status.getLsbD 1 = false → a.txCount - 1 ≤ 0 →
      ∃ st : Byte,
        StatusBecomes a.status st ((a.command.getLsbD 3 && a.status.getLsbD 0) || a.command.getLsbD 2)
          (fun i => if i = 1 then some true else none) ∧
        exec (.aciaStep d) s = .next { s with
          slots := s.slots.set d.toNat
            ⟨.acia { a with status := st, txHold := 0, txCount := a.txCount - 1 },
              (a.command.getLsbD 3 && a.status.getLsbD 0) || a.command.getLsbD 2⟩,
          output := s.output ++ (if a.sinkAttached then [.tx d a.txHold] else []),
          ret := .nothing })

/-- R214: a delivered byte is ignored with the receiver off, lost with `OVRN` set if one is pending, else stored with
`RDRF` set and the contribution re-evaluated. -/
def Obligations.AciaDeliveryStoresOrOverruns : Prop :=
  (∀ arg : BitVec 4, Decodes .acia 0x4 arg .aciaRxb) ∧
  ∀ (s : State) (d : DevId) (x : Byte) (a : Acia) (c : Bool), s.slotAt d = some ⟨.acia a, c⟩ →
    (a.command.getLsbD 0 = false → exec (.aciaRxb d x) s = .next { s with ret := .nothing }) ∧
    (a.command.getLsbD 0 = true → a.status.getLsbD 0 = true →
      ∃ st : Byte,
        StatusBecomes a.status st (a.status.getLsbD 7) (fun i => if i = 5 then some true else none) ∧
        exec (.aciaRxb d x) s = .next { s with
          slots := s.slots.set d.toNat ⟨.acia { a with status := st }, c⟩, ret := .nothing }) ∧
    (a.command.getLsbD 0 = true → a.status.getLsbD 0 = false →
      ∃ st : Byte,
        StatusBecomes a.status st (a.command.getLsbD 3 || (a.command.getLsbD 2 && a.status.getLsbD 1))
          (fun i => if i = 0 then some true else none) ∧
        exec (.aciaRxb d x) s = .next { s with
          slots := s.slots.set d.toNat
            ⟨.acia { a with status := st, rxHold := x },
              a.command.getLsbD 3 || (a.command.getLsbD 2 && a.status.getLsbD 1)⟩,
          ret := .nothing })

/-- A byte written on the transmit path is handed to the sink by exactly the `N`-th tick after the write, `N` being
the tick count of R203, and not earlier; then the transmitter is empty. -/
def Obligations.AciaByteDeliveredOnTheLastTick : Prop :=
  ∀ (s : State) (d : DevId) (x : Byte) (a : Acia) (c : Bool), 1 ≤ s.cfg.maxTicks → s.slotAt d = some ⟨.acia a, c⟩ →
    a.command.getLsbD 5 = true →
      (∀ n : Nat, (n : Int) < ticksPerByte s.cfg a.toAciaRecord →
        ∃ t a' c', runOps (.aciaWrData d x :: List.replicate n (.aciaStep d)) s = .next t ∧
          t.slotAt d = some ⟨.acia a', c'⟩ ∧ a'.status.getLsbD 1 = false ∧ a'.txHold = x ∧
          a'.txCount = ticksPerByte s.cfg a.toAciaRecord - n ∧ t.output = s.output) ∧
      (∃ t a' c',
        runOps (.aciaWrData d x :: List.replicate (ticksPerByte s.cfg a.toAciaRecord).toNat (.aciaStep d)) s =
          .next t ∧
          t.slotAt d = some ⟨.acia a', c'⟩ ∧ a'.status.getLsbD 1 = true ∧ a'.txHold = 0 ∧ a'.txCount = 0 ∧
          t.output = s.output ++ (if a.sinkAttached then [.tx d x] else []))

/-- R292 and R293: `SIG NMI` on an ACIA is one event and changes no state of the block; `SIG IRQ` forces the device's
contribution to 1 and changes nothing else, `status.IRQ` included. -/
def Obligations.AciaSignalsReachTheLines : Prop :=
  Decodes .acia 0x3 0x1 (fun d _ => .aciaSigNmi d) ∧ Decodes .acia 0x3 0x2 (fun d _ => .aciaSigIrq d) ∧
  ∀ (s : State) (d : DevId) (a : Acia) (c : Bool), s.slotAt d = some ⟨.acia a, c⟩ →
    exec (.aciaSigNmi d) s = .next { s with output := s.output ++ [.nmi d], ret := .nothing } ∧
    (∃ t, exec (.aciaSigIrq d) s = .next t ∧
      t = { s with slots := s.slots.set d.toNat ⟨.acia a, true⟩, ret := .nothing } ∧ t.irqLine = true)

/-! ### PIA -/

/-- Port reads return the stored byte whatever the direction; port writes store the byte whole and recompute the
handshake output of their side. -/
def Obligations.PiaPortsAndHandshake : Prop :=
  PiaPlainRead 0 .piaRdPb (fun p => p.pb) ∧ PiaPlainRead 1 .piaRdPa (fun p => p.pa) ∧
  (∀ hi : BitVec 2, Decodes .pia 0x1 (hi ++ 0#2) .piaWrPb) ∧
  (∀ hi : BitVec 2, Decodes .pia 0x1 (hi ++ 1#2) .piaWrPa) ∧
  ∀ (s : State) (d : DevId) (x : Byte) (p : Pia) (c : Bool), s.slotAt d = some ⟨.pia p, c⟩ →
    exec (.piaWrPb d x) s = .next { s with
      slots := s.slots.set d.toNat ⟨.pia { p with pb := x, cb2Out := p.crb.getLsbD 1 && x.getLsbD 1 }, c⟩,
      ret := .nothing } ∧
    exec (.piaWrPa d x) s = .next { s with
      slots := s.slots.set d.toNat ⟨.pia { p with pa := x, ca2Out := p.cra.getLsbD 1 && x.getLsbD 1 }, c⟩,
      ret := .nothing }

/-- Control reads return the flag in bit 7, stored bits 6 to 2, and the levels of line 2 and line 1 in bits 1 and 0,
and change nothing. -/
def Obligations.PiaControlReadsMirrorFlagAndLines : Prop :=
  (∀ hi : BitVec 2, Decodes .pia 0x0 (hi ++ 2#2) (fun d _ => .piaRdCrb d)) ∧
  (∀ hi : BitVec 2, Decodes .pia 0x0 (hi ++ 3#2) (fun d _ => .piaRdCra d)) ∧
  ∀ (s : State) (d : DevId) (p : Pia) (c : Bool), s.slotAt d = some ⟨.pia p, c⟩ →
    (∃ b : Byte, exec (.piaRdCrb d) s = .next { s with ret := .byte b } ∧ b.getLsbD 7 = p.irqb ∧
      (∀ i, 2 ≤ i → i ≤ 6 → b.getLsbD i = p.crb.getLsbD i) ∧ b.getLsbD 1 = p.cb2 ∧ b.getLsbD 0 = p.cb1) ∧
    (∃ b : Byte, exec (.piaRdCra d) s = .next { s with ret := .byte b } ∧ b.getLsbD 7 = p.irqa ∧
      (∀ i, 2 ≤ i → i ≤ 6 → b.getLsbD i = p.cra.getLsbD i) ∧ b.getLsbD 1 = p.ca2 ∧ b.getLsbD 0 = p.ca1)

/-- Control writes store the byte, make its low 4 bits the direction register, clear their side's flag, recompute the
handshake output and re-evaluate. -/
def Obligations.PiaControlWritesClearTheirFlag : Prop :=
  (∀ hi : BitVec 2, Decodes .pia 0x1 (hi ++ 2#2) .piaWrCrb) ∧
  (∀ hi : BitVec 2, Decodes .pia 0x1 (hi ++ 3#2) .piaWrCra) ∧
  ∀ (s : State) (d : DevId) (x : Byte) (p : Pia) (c : Bool), s.slotAt d = some ⟨.pia p, c⟩ →
    exec (.piaWrCrb d x) s = .next { s with
      slots := s.slots.set d.toNat
        ⟨.pia { p with crb := x, ddrb := x &&& 0x0F, irqb := false, cb2Out := x.getLsbD 1 && p.pb.getLsbD 1 },
          p.irqa⟩,
      ret := .nothing } ∧
    exec (.piaWrCra d x) s = .next { s with
      slots := s.slots.set d.toNat
        ⟨.pia { p with cra := x, ddra := x &&& 0x0F, irqa := false, ca2Out := x.getLsbD 1 && p.pa.getLsbD 1 },
          p.irqb⟩,
      ret := .nothing }

/-- The line setters: presenting the stored level does nothing; a change stores the level, sets the side's flag if the
line's enable is set (and, for line 2, the line is in input mode), and re-evaluates. -/
def Obligations.PiaLineChangesSetEnabledFlags : Prop :=
  (∀ (kinds : List Kind) (d : DevId), kinds[d.toNat]? = some .pia →
    decode kinds (packWord ⟨d, 0x5, 0x0, 0x01⟩) = .ok (.piaLineCa1 d true) ∧
    decode kinds (packWord ⟨d, 0x5, 0x0, 0x00⟩) = .ok (.piaLineCa1 d false) ∧
    decode kinds (packWord ⟨d, 0x5, 0x1, 0x01⟩) = .ok (.piaLineCa2 d true) ∧
    decode kinds (packWord ⟨d, 0x5, 0x1, 0x00⟩) = .ok (.piaLineCa2 d false) ∧
    decode kinds (packWord ⟨d, 0x5, 0x2, 0x01⟩) = .ok (.piaLineCb1 d true) ∧
    decode kinds (packWord ⟨d, 0x5, 0x2, 0x00⟩) = .ok (.piaLineCb1 d false) ∧
    decode kinds (packWord ⟨d, 0x5, 0x3, 0x01⟩) = .ok (.piaLineCb2 d true) ∧
    decode kinds (packWord ⟨d, 0x5, 0x3, 0x00⟩) = .ok (.piaLineCb2 d false)) ∧
  ∀ (s : State) (d : DevId) (p : Pia) (c : Bool), s.slotAt d = some ⟨.pia p, c⟩ →
    (exec (.piaLineCa1 d p.ca1) s = .next { s with ret := .nothing } ∧
     exec (.piaLineCa2 d p.ca2) s = .next { s with ret := .nothing } ∧
     exec (.piaLineCb1 d p.cb1) s = .next { s with ret := .nothing } ∧
     exec (.piaLineCb2 d p.cb2) s = .next { s with ret := .nothing }) ∧
    (∀ f : Bool, f = (p.irqa || p.cra.getLsbD 4) →
      exec (.piaLineCa1 d (!p.ca1)) s = .next { s with
        slots := s.slots.set d.toNat ⟨.pia { p with ca1 := !p.ca1, irqa := f }, f || p.irqb⟩, ret := .nothing }) ∧
    (∀ f : Bool, f = (p.irqa || (p.cra.getLsbD 5 && !p.cra.getLsbD 1)) →
      exec (.piaLineCa2 d (!p.ca2)) s = .next { s with
        slots := s.slots.set d.toNat ⟨.pia { p with ca2 := !p.ca2, irqa := f }, f || p.irqb⟩, ret := .nothing }) ∧
    (∀ f : Bool, f = (p.irqb || p.crb.getLsbD 4) →
      exec (.piaLineCb1 d (!p.cb1)) s = .next { s with
        slots := s.slots.set d.toNat ⟨.pia { p with cb1 := !p.cb1, irqb := f }, p.irqa || f⟩, ret := .nothing }) ∧
    (∀ f : Bool, f = (p.irqb || (p.crb.getLsbD 5 && !p.crb.getLsbD 1)) →
      exec (.piaLineCb2 d (!p.cb2)) s = .next { s with
        slots := s.slots.set d.toNat ⟨.pia { p with cb2 := !p.cb2, irqb := f }, p.irqa || f⟩, ret := .nothing })

/-- R264: a tick of a PIA is a valid operation that changes nothing. -/
def Obligations.PiaStepChangesNothing : Prop :=
  (∀ arg : BitVec 4, Decodes .pia 0x2 arg (fun d _ => .piaStep d)) ∧
  ∀ (s : State) (d : DevId) (p : Pia) (c : Bool), s.slotAt d = some ⟨.pia p, c⟩ →
    exec (.piaStep d) s = .next { s with ret := .nothing }

/-! ### Signals, save and load -/

/-- R294: an unrecognised signal to any device, and `NMI` or `IRQ` to a VIA or a PIA, are valid operations that change
nothing. -/
def Obligations.IgnoredSignalsChangeNothing : Prop :=
  ((∀ k : Kind, Decodes k 0x3 0xF (fun d _ => .anySigOther d)) ∧
    Decodes .via 0x3 0x1 (fun d _ => .viaSigNmi d) ∧ Decodes .via 0x3 0x2 (fun d _ => .viaSigIrq d) ∧
    Decodes .pia 0x3 0x1 (fun d _ => .piaSigNmi d) ∧ Decodes .pia 0x3 0x2 (fun d _ => .piaSigIrq d)) ∧
  (∀ (s : State) (d : DevId) (slot : Slot), s.slotAt d = some slot →
    exec (.anySigOther d) s = .next { s with ret := .nothing }) ∧
  (∀ (s : State) (d : DevId) (v : Via) (c : Bool), s.slotAt d = some ⟨.via v, c⟩ →
    exec (.viaSigNmi d) s = .next { s with ret := .nothing } ∧
    exec (.viaSigIrq d) s = .next { s with ret := .nothing }) ∧
  (∀ (s : State) (d : DevId) (p : Pia) (c : Bool), s.slotAt d = some ⟨.pia p, c⟩ →
    exec (.piaSigNmi d) s = .next { s with ret := .nothing } ∧
    exec (.piaSigIrq d) s = .next { s with ret := .nothing })

/-- R300 with R301 to R303: a save returns the record of its device, every field at its current value, and changes no
state of the block. -/
def Obligations.SaveReturnsTheRecord : Prop :=
  (∀ (k : Kind) (arg : BitVec 4), Decodes k 0x7 arg (fun d _ => .anySave d)) ∧
  ∀ (s : State) (d : DevId) (slot : Slot), s.slotAt d = some slot →
    ∃ (t : State) (r : Record), exec (.anySave d) s = .next t ∧ t.ret = .record r ∧
      t.slots = s.slots ∧ t.output = s.output ∧ t.cfg = s.cfg ∧ t.trace = s.trace ∧ t.index = s.index ∧
      (∀ v, slot.dev = .via v → r = .via
        { ora := v.ora, orb := v.orb, ddra := v.ddra, ddrb := v.ddrb, t1c := v.t1c, t1l := v.t1l, t2c := v.t2c,
          t2l := v.t2l, sr := v.sr, acr := v.acr, pcr := v.pcr, ifr := v.ifr, ier := v.ier }) ∧
      (∀ a, slot.dev = .acia a → r = .acia
        { status := a.status, command := a.command, control := a.control, test := a.test, txHold := a.txHold,
          rxHold := a.rxHold, baud := a.baud, frame := a.frame, txCount := a.txCount }) ∧
      (∀ p, slot.dev = .pia p → r = .pia p)

/-- R304 to R306: a load replaces every field of the record's kind, leaves pin levels and sink alone, and
re-evaluates; an ACIA's stored IRQ bit is not trusted. -/
def Obligations.LoadsRestoreAndReevaluate : Prop :=
  (∀ arg : BitVec 4, Decodes .via 0x8 arg .viaLoad ∧ Decodes .acia 0x8 arg .aciaLoad ∧ Decodes .pia 0x8 arg .piaLoad) ∧
  (∀ (s : State) (d : DevId) (n : Byte) (v : Via) (c : Bool) (r : ViaRecord), s.slotAt d = some ⟨.via v, c⟩ →
    s.records[n.toNat]? = some (.via r) →
      exec (.viaLoad d n) s = .next { s with
        slots := s.slots.set d.toNat
          ⟨.via { ora := r.ora, orb := r.orb, ddra := r.ddra, ddrb := r.ddrb, t1c := r.t1c, t1l := r.t1l, t2c := r.t2c,
                  t2l := r.t2l, sr := r.sr, acr := r.acr, pcr := r.pcr, ifr := r.ifr, ier := r.ier, paIn := v.paIn,
                  pbIn := v.pbIn }, (r.ifr &&& r.ier) != 0⟩,
        ret := .nothing }) ∧
  (∀ (s : State) (d : DevId) (n : Byte) (a : Acia) (c : Bool) (r : AciaRecord), s.slotAt d = some ⟨.acia a, c⟩ →
    s.records[n.toNat]? = some (.acia r) →
      ∃ st : Byte, StatusBecomes r.status st (aciaWants r.command r.status) (fun _ => none) ∧
        exec (.aciaLoad d n) s = .next { s with
          slots := s.slots.set d.toNat
            ⟨.acia { status := st, command := r.command, control := r.control, test := r.test, txHold := r.txHold,
                     rxHold := r.rxHold, baud := r.baud, frame := r.frame, txCount := r.txCount,
                     sinkAttached := a.sinkAttached }, aciaWants r.command r.status⟩,
          ret := .nothing }) ∧
  (∀ (s : State) (d : DevId) (n : Byte) (p : Pia) (c : Bool) (r : Pia), s.slotAt d = some ⟨.pia p, c⟩ →
    s.records[n.toNat]? = some (.pia r) →
      exec (.piaLoad d n) s = .next { s with
        slots := s.slots.set d.toNat ⟨.pia r, r.irqa || r.irqb⟩, ret := .nothing })

/-- A save puts its record at the end of the record table: the place is the model's choice, deduced from the program
P4 (log entry 10). A load of a record of another kind is refused, not converted (93_implementation_defined.md U9); so
is a load of an index the table does not have, which is the model's choice (log entry 11). -/
def Obligations.RecordTableOfSavesAndLoads : Prop :=
  (∀ (s : State) (d : DevId) (slot : Slot), s.slotAt d = some slot →
    ∃ t, exec (.anySave d) s = .next t ∧ t.records = s.records ++ [slot.dev.record] ∧
      t.ret = .record slot.dev.record) ∧
  ∀ (s : State) (d : DevId) (n : Byte),
    (s.records[n.toNat]? = none →
      exec (.viaLoad d n) s = .refused .noRecord ∧ exec (.aciaLoad d n) s = .refused .noRecord ∧
      exec (.piaLoad d n) s = .refused .noRecord) ∧
    (∀ r, s.records[n.toNat]? = some r →
      (r.kind ≠ .via → exec (.viaLoad d n) s = .refused .recordOfAnotherKind) ∧
      (r.kind ≠ .acia → exec (.aciaLoad d n) s = .refused .recordOfAnotherKind) ∧
      (r.kind ≠ .pia → exec (.piaLoad d n) s = .refused .recordOfAnotherKind))

/-- A save and then the load of the saved record leave every device as it was, so every later register read is as
without them; the contribution becomes the want, which changes it only after `SIG IRQ`. The premise `s.Honest` is an
invariant of the model (R328). That the saved record is the one the index `records.length` names is the model's
choice, deduced from the program P4 (95_test_vectors.md, log entry 10). -/
def Obligations.SaveThenLoadRoundTrip : Prop :=
  ∀ (s : State) (d : DevId) (slot : Slot), s.slotAt d = some slot → s.Honest → s.records.length < 256 →
    ∃ t u, exec (.anySave d) s = .next t ∧
      exec (decodeLoad slot.dev.kind d (BitVec.ofNat 8 s.records.length)) t = .next u ∧
      u.slots = s.slots.set d.toNat ⟨slot.dev, slot.dev.want⟩ ∧ u.output = s.output ∧
      (slot.contrib = slot.dev.want → u.slots = s.slots)

/-! ### Statements about the whole machine -/

/-- R322: the shared line is asserted iff some device's contribution is 1. -/
def Obligations.IrqLineIsTheOrOfContributions : Prop :=
  ∀ s : State, s.irqLine = true ↔ ∃ (d : Nat) (slot : Slot), s.slots[d]? = some slot ∧ slot.contrib = true

/-- Every step keeps the configuration and the device kinds it gives (R6, R26). -/
def Obligations.EveryStepKeepsConfigurationAndShape : Prop :=
  ∀ s t : State, s.Shaped → step s = .next t → t.cfg = s.cfg ∧ t.Shaped

/-- R328: every step keeps the tie between contributions, status IRQ bits and wants; and no operation but `SIG IRQ`
makes a contribution differ from its device's want. -/
def Obligations.EveryStepKeepsContributionsHonest : Prop :=
  (∀ s t : State, s.Honest → step s = .next t → t.Honest) ∧
  ∀ (i : Instr) (s t : State), (∀ slot ∈ s.slots, slot.contrib = slot.dev.want ∧ slot.dev.MirrorsWant) →
    (∀ d, i ≠ .aciaSigIrq d) → exec i s = .next t →
      ∀ slot ∈ t.slots, slot.contrib = slot.dev.want ∧ slot.dev.MirrorsWant

/-- R50 and R59: every operation but a load keeps the relations between an ACIA's holding bytes, countdown and status
and between a PIA's control, direction, port and handshake fields. -/
def Obligations.OnlyLoadsCanUnsettleADevice : Prop :=
  ∀ (i : Instr) (s t : State), 1 ≤ s.cfg.maxTicks → s.Settled → i.isLoad = false → exec i s = .next t → t.Settled

/-- The three invariants hold at power-on of every configuration, and so at `State.reset`. -/
def Obligations.InvariantsHoldAtPowerOn : Prop :=
  (∀ c : Config, (State.powerOn c).Shaped ∧ (State.powerOn c).Honest ∧ (State.powerOn c).Settled) ∧
  Sys2Proof.core.reset.Shaped ∧ Sys2Proof.core.reset.Honest ∧ Sys2Proof.core.reset.Settled

/-- Every state the host can reach, whatever operations it issues and whatever records it supplies, has its
configuration, its device kinds, and contributions tied to the wants. -/
def Obligations.ReachableStatesKeepTheInvariants : Prop :=
  ∀ (c : Config) (s : State), Reachable c s → s.cfg = c ∧ s.Shaped ∧ s.Honest

/-- R26: an operation on one device changes no other device, no other contribution, and neither the configuration nor
the host's trace. -/
def Obligations.OtherDevicesAreUntouched : Prop :=
  ∀ (i : Instr) (s t : State), exec i s = .next t →
    (∀ e, e ≠ i.dev → t.slotAt e = s.slotAt e) ∧ t.slots.length = s.slots.length ∧ t.cfg = s.cfg ∧
      t.trace = s.trace ∧ t.index = s.index

/-- R340: every operation the decoder accepts completes with a next state, in every state of the configured shape; a
load needs its record. -/
def Obligations.EveryDecodedOperationCompletes : Prop :=
  (∀ (i : Instr) (s : State), s.Shaped → i.WellFormed s.cfg.kinds → RecordReady s i → ∃ t, exec i s = .next t) ∧
  ∀ (s : State) (w : HopWord) (i : Instr), s.Shaped → s.cfg.valid = true → s.fetch = some w →
    decode s.cfg.kinds w = .ok i → RecordReady s i → ∃ t, step s = .next t

/-- R327: no operation outside the table of re-evaluation points changes any contribution; in `quirk` mode neither
does `VIA.STEP`. -/
def Obligations.AggregatorWrittenOnlyAtReevaluationPoints : Prop :=
  ∀ (i : Instr) (s t : State), exec i s = .next t →
    (¬ MayWriteAggregator i ∨ (∃ d, i = .viaStep d) ∧ s.cfg.timerMode = .quirk) →
      t.slots.map Slot.contrib = s.slots.map Slot.contrib

/-- R76: a register read changes nothing but what it returns, except the two low counter reads and an ACIA data read;
the second of two ACIA data reads in a row returns 0. -/
def Obligations.OnlyThreeReadsHaveSideEffects : Prop :=
  (∀ (i : Instr) (s t : State), i.isRegisterRead = true → exec i s = .next t →
    (∀ d, i ≠ .viaRdT1cl d) → (∀ d, i ≠ .viaRdT2cl d) → (∀ d, i ≠ .aciaRdData d) →
      ∃ b : Byte, t = { s with ret := .byte b }) ∧
  ∀ (s t : State) (d : DevId), exec (.aciaRdData d) s = .next t →
    exec (.aciaRdData d) t = .next { t with ret := .byte 0 }

/-- Only a delivering tick of an ACIA emits a `Tx` event and only `SIG NMI` to an ACIA an `Nmi` event; each emits at
most one, at the end of the output. -/
def Obligations.EventsComeOnlyFromTicksAndNmi : Prop :=
  ∀ (i : Instr) (s t : State), exec i s = .next t →
    t.output = s.output ∨ (∃ d b, i = .aciaStep d ∧ t.output = s.output ++ [.tx d b]) ∨
      (∃ d, i = .aciaSigNmi d ∧ t.output = s.output ++ [.nmi d])

/-- R334: ticks of two different devices can be performed in either order: the devices and the contributions after
both are the same. -/
def Obligations.TicksOfDifferentDevicesCommute : Prop :=
  ∀ (i j : Instr) (s t u : State), IsTick i → IsTick j → i.dev ≠ j.dev → exec i s = .next t → exec j t = .next u →
    ∃ t' u', exec j s = .next t' ∧ exec i t' = .next u' ∧ u'.slots = u.slots

/-! ### The bus and the trace -/

/-- An address inside a window of a valid configuration reaches that device at the offset of its low 4 or 2 bits, for
reads and writes (R71, R72). That an address in no window reaches no device is the model's choice (log entry 20): R71
lets the host repeat windows and has no rule for an address that reaches no device. -/
def Obligations.BusAccessReachesTheWindowsDevice : Prop :=
  (∀ (c : Config) (addr : Nat) (v : Byte) (d : DevId) (dc : DeviceConfig), c.valid = true →
    c.devices[d.toNat]? = some dc → dc.base ≤ addr → addr < dc.base + dc.kind.window →
      ∃ wr ww, busReadWord c addr = some wr ∧ busWriteWord c addr v = some ww ∧
        decode c.kinds wr = .ok (decodeRead dc.kind d (BitVec.ofNat 4 (addr % dc.kind.window))) ∧
        decode c.kinds ww = .ok (decodeWrite dc.kind d (BitVec.ofNat 4 (addr % dc.kind.window)) v)) ∧
  ∀ (c : Config) (addr : Nat), (∀ dc ∈ c.devices, addr < dc.base ∨ dc.base + dc.kind.window ≤ addr) →
    busReadWord c addr = none ∧ ∀ v, busWriteWord c addr v = none

/-- `TICK` is one `STEP` of every device in ascending index (R127). -/
def Obligations.TickStepsEveryDeviceInOrder : Prop :=
  ∀ c : Config, c.valid = true →
    (TraceLine.words c.ndev (.tick 1)).length = c.ndev ∧
    ∀ (d : DevId) (k : Kind), c.kinds[d.toNat]? = some k →
      ∃ w, (TraceLine.words c.ndev (.tick 1))[d.toNat]? = some w ∧ decode c.kinds w = .ok (decodeStep k d)

end
end

