-- ==== Sys2Proof/Laws/Bits.lean ====
section
/-! SUPPORT. The bits of words: fields of a host-operation word, single bits written, bytes of 16-bit values, and
the computed bits of register views. Later proofs cite these and do not unfold the concatenations. -/

namespace Sys2Proof

/-- The bits of an assembled word, field by field. -/
theorem getLsbD_packWord (f : WordFields) (i : Nat) :
    (packWord f).getLsbD i =
      if i < 8 then f.data.getLsbD i
      else if i < 12 then f.arg.getLsbD (i - 8)
      else if i < 16 then f.kind.getLsbD (i - 12)
      else f.dev.getLsbD (i - 16) := by
  have h1 := BitVec.getLsbD_append (x := f.dev ++ f.kind ++ f.arg) (y := f.data) (i := i)
  have h2 := BitVec.getLsbD_append (x := f.dev ++ f.kind) (y := f.arg) (i := i - 8)
  have h3 := BitVec.getLsbD_append (x := f.dev) (y := f.kind) (i := i - 8 - 4)
  refine h1.trans ?_
  rw [h2, h3]
  grind

/-- Cutting an assembled word gives its fields back. -/
@[simp] theorem unpackWord_packWord (f : WordFields) : unpackWord (packWord f) = f := by
  obtain ⟨d, k, a, x⟩ := f
  simp only [unpackWord, WordFields.mk.injEq]
  refine ⟨?_, ?_, ?_, ?_⟩ <;> apply BitVec.eq_of_getLsbD_eq <;> intro i hi <;>
    simp only [BitVec.getLsbD_extractLsb', getLsbD_packWord] <;> grind

/-- Assembling the fields of a word gives the word back. -/
@[simp] theorem packWord_unpackWord (w : HopWord) : packWord (unpackWord w) = w := by
  apply BitVec.eq_of_getLsbD_eq
  intro i hi
  simp only [getLsbD_packWord, unpackWord, BitVec.getLsbD_extractLsb']
  grind

/-- Decoding an assembled word is decoding its fields. -/
@[simp] theorem decode_packWord (kinds : List Kind) (f : WordFields) :
    decode kinds (packWord f) = decodeFields kinds f := by
  simp [decode]

end Sys2Proof

namespace Sys2Proof.Machine

/-- Every bit of a word after one bit was written. -/
@[simp] theorem getLsbD_writeBit {w : Nat} (x : BitVec w) (i j : Nat) (b : Bool) :
    (writeBit x i b).getLsbD j = if i = j ∧ j < w then b else x.getLsbD j := by
  have hone : (1#w <<< i).getLsbD j = decide (i = j ∧ j < w) := by
    simp only [BitVec.getLsbD_shiftLeft, BitVec.getLsbD_one]
    grind
  have hge : ¬ j < w → x.getLsbD j = false := fun h => BitVec.getLsbD_of_ge x j (by omega)
  unfold writeBit
  cases b <;> simp [-BitVec.getLsbD_shiftLeft, hone] <;> grind

/-- The same for a bit in range, in the form `simp` brings bits to. -/
@[simp] theorem getElem_writeBit {w : Nat} (x : BitVec w) (i j : Nat) (b : Bool) (hj : j < w) :
    (writeBit x i b)[j] = if i = j then b else x[j] := by
  rw [← BitVec.getLsbD_eq_getElem, getLsbD_writeBit]
  simp [hj]

/-- Bits of a 16-bit value whose low byte was written. -/
theorem getLsbD_withLow (x : Count16) (v : Byte) (i : Nat) (hi : i < 16) :
    (withLow x v).getLsbD i = if i < 8 then v.getLsbD i else x.getLsbD i := by
  refine (BitVec.getLsbD_append (x := highByte x) (y := v) (i := i)).trans ?_
  simp only [highByte, BitVec.getLsbD_extractLsb']
  grind

/-- Bits of a 16-bit value whose high byte was written. -/
theorem getLsbD_withHigh (x : Count16) (v : Byte) (i : Nat) :
    (withHigh x v).getLsbD i = if i < 8 then x.getLsbD i else v.getLsbD (i - 8) := by
  refine (BitVec.getLsbD_append (x := v) (y := lowByte x) (i := i)).trans ?_
  simp only [lowByte, BitVec.getLsbD_extractLsb']
  grind

@[simp] theorem lowByte_withLow (x : Count16) (v : Byte) : lowByte (withLow x v) = v := by
  apply BitVec.eq_of_getLsbD_eq
  intro i hi
  simp only [lowByte, BitVec.getLsbD_extractLsb']
  grind [getLsbD_withLow]

@[simp] theorem highByte_withLow (x : Count16) (v : Byte) : highByte (withLow x v) = highByte x := by
  apply BitVec.eq_of_getLsbD_eq
  intro i hi
  simp only [highByte, BitVec.getLsbD_extractLsb']
  grind [getLsbD_withLow]

@[simp] theorem highByte_withHigh (x : Count16) (v : Byte) : highByte (withHigh x v) = v := by
  apply BitVec.eq_of_getLsbD_eq
  intro i hi
  simp only [highByte, BitVec.getLsbD_extractLsb']
  grind [getLsbD_withHigh]

@[simp] theorem lowByte_withHigh (x : Count16) (v : Byte) : lowByte (withHigh x v) = lowByte x := by
  apply BitVec.eq_of_getLsbD_eq
  intro i hi
  simp only [lowByte, BitVec.getLsbD_extractLsb']
  grind [getLsbD_withHigh]

/-- The bits of IFR as read: the stored flags and the computed bit 7 (R104). -/
theorem getLsbD_ifrView (v : ViaRecord) (i : Nat) :
    (ifrView v).getLsbD i = if i < 7 then v.ifr.getLsbD i else decide (i = 7) && v.want := by
  refine (BitVec.getLsbD_append (x := BitVec.ofBool v.want) (y := v.ifr) (i := i)).trans ?_
  by_cases h : i < 7
  · simp [h]
  · simp only [h, if_false]
    grind

/-- The bits of IER as read: the stored enables and bit 7 = 1 (R105). -/
theorem getLsbD_ierView (v : ViaRecord) (i : Nat) :
    (ierView v).getLsbD i = if i < 7 then v.ier.getLsbD i else decide (i = 7) := by
  refine (BitVec.getLsbD_append (x := 1#1) (y := v.ier) (i := i)).trans ?_
  by_cases h : i < 7
  · simp [h]
  · simp only [h, if_false]
    grind

/-- The bits of a PIA control register as read (R112). -/
theorem getLsbD_controlView (irq : Bool) (cr : Byte) (l2 l1 : Bool) (i : Nat) :
    (controlView irq cr l2 l1).getLsbD i =
      if i = 0 then l1 else if i = 1 then l2 else if i < 7 then cr.getLsbD i else decide (i = 7) && irq := by
  have h1 := BitVec.getLsbD_append
    (x := BitVec.ofBool irq ++ cr.extractLsb' 2 5 ++ BitVec.ofBool l2) (y := BitVec.ofBool l1) (i := i)
  have h2 := BitVec.getLsbD_append (x := BitVec.ofBool irq ++ cr.extractLsb' 2 5) (y := BitVec.ofBool l2) (i := i - 1)
  have h3 := BitVec.getLsbD_append (x := BitVec.ofBool irq) (y := cr.extractLsb' 2 5) (i := i - 1 - 1)
  refine h1.trans ?_
  rw [h2, h3]
  simp only [BitVec.getLsbD_ofBool, BitVec.getLsbD_extractLsb']
  grind

end Sys2Proof.Machine
end

