-- ==== Sys2Proof/Laws/State.lean ====
section
/-! SUPPORT. One lemma per field per update of the state, so that no later proof unfolds a record update. -/

namespace Sys2Proof.Machine

/-! ### `State.commit` -/

section
variable (s : State) (d e : DevId) (slot : Slot) (ret : Returned) (events : List Event)

@[simp] theorem commit_cfg : (s.commit d slot ret events).cfg = s.cfg := rfl
@[simp] theorem commit_slots : (s.commit d slot ret events).slots = s.slots.set d.toNat slot := rfl
@[simp] theorem commit_output : (s.commit d slot ret events).output = s.output ++ events := rfl
@[simp] theorem commit_records : (s.commit d slot ret events).records = s.records := rfl
@[simp] theorem commit_ret : (s.commit d slot ret events).ret = ret := rfl
@[simp] theorem commit_trace : (s.commit d slot ret events).trace = s.trace := rfl
@[simp] theorem commit_index : (s.commit d slot ret events).index = s.index := rfl

/-- Slot `d` after it was written, where the device exists. -/
theorem slotAt_commit_self {old : Slot} (h : s.slotAt d = some old) :
    (s.commit d slot ret events).slotAt d = some slot := by
  obtain ⟨hlt, -⟩ := List.getElem?_eq_some_iff.mp h
  simp [State.slotAt, hlt]

/-- Every other slot after slot `d` was written. -/
theorem slotAt_commit_other (h : e ≠ d) : (s.commit d slot ret events).slotAt e = s.slotAt e := by
  have : d.toNat ≠ e.toNat := fun he => h (BitVec.eq_of_toNat_eq he.symm)
  simp [State.slotAt, List.getElem?_set_ne this]

/-- Writing a slot with what it holds changes no slot. -/
theorem commit_same (h : s.slotAt d = some slot) :
    s.commit d slot ret events = { s with ret := ret, output := s.output ++ events } := by
  obtain ⟨hlt, hget⟩ := List.getElem?_eq_some_iff.mp h
  have : s.slots.set d.toNat slot = s.slots := by
    subst hget
    exact List.set_getElem_self hlt
  simp [State.commit, this]

/-- A slot of the block is a member of its slots. -/
theorem mem_of_slotAt {s : State} {d : DevId} {slot : Slot} (h : s.slotAt d = some slot) : slot ∈ s.slots :=
  List.mem_of_getElem? h

end

/-! ### `State.advance` and `State.withFetchWord` -/

section
variable (s : State) (nbits w : Nat)

@[simp] theorem advance_cfg : s.advance.cfg = s.cfg := rfl
@[simp] theorem advance_slots : s.advance.slots = s.slots := rfl
@[simp] theorem advance_output : s.advance.output = s.output := rfl
@[simp] theorem advance_records : s.advance.records = s.records := rfl
@[simp] theorem advance_ret : s.advance.ret = s.ret := rfl
@[simp] theorem advance_trace : s.advance.trace = s.trace.tail := rfl
@[simp] theorem advance_index : s.advance.index = s.index + 1 := rfl
@[simp] theorem slotAt_advance (d : DevId) : s.advance.slotAt d = s.slotAt d := rfl

@[simp] theorem withFetchWord_cfg : (s.withFetchWord nbits w).cfg = s.cfg := rfl
@[simp] theorem withFetchWord_slots : (s.withFetchWord nbits w).slots = s.slots := rfl
@[simp] theorem withFetchWord_output : (s.withFetchWord nbits w).output = s.output := rfl
@[simp] theorem withFetchWord_records : (s.withFetchWord nbits w).records = s.records := rfl
@[simp] theorem withFetchWord_ret : (s.withFetchWord nbits w).ret = s.ret := rfl
@[simp] theorem withFetchWord_index : (s.withFetchWord nbits w).index = s.index := rfl
@[simp] theorem fetch_withFetchWord :
    (s.withFetchWord nbits w).fetch = some (BitVec.ofNat 24 (w % 2 ^ nbits)) := rfl
@[simp] theorem withFetchWord_advance_trace : (s.withFetchWord nbits w).advance.trace = s.trace.tail := rfl

end

/-! ### The power-on state -/

@[simp] theorem powerOn_cfg (c : Config) : (State.powerOn c).cfg = c := rfl
@[simp] theorem powerOn_slots (c : Config) :
    (State.powerOn c).slots = c.devices.map fun dc => ⟨devicePowerOn dc, false⟩ := rfl

/-- The kind of a device at power-on is the kind its configuration gives it. -/
@[simp] theorem kind_devicePowerOn (dc : DeviceConfig) : (devicePowerOn dc).kind = dc.kind := by
  unfold devicePowerOn
  cases dc.kind <;> rfl

/-- A device keeps its kind at reset. -/
@[simp] theorem kind_reset (dev : Device) : dev.reset.kind = dev.kind := by
  cases dev <;> rfl

/-- A record is of its device's kind. -/
@[simp] theorem kind_record (dev : Device) : dev.record.kind = dev.kind := by
  cases dev <;> rfl

end Sys2Proof.Machine
end

