-- ==== Sys2Proof/Laws/Ops.lean ====
section
/-! SUPPORT. One lemma per shared operation that says once everything it can do: access to a device of a kind (it
answers on a device of that kind, and only there), re-evaluation, and the tick of one timer. -/

namespace Sys2Proof.Machine

variable {s t : State} {d : DevId}

/-! ### Access to the addressed device -/

/-- `onAny` answers where the device exists. -/
theorem onAny_eq {slot : Slot} (h : s.slotAt d = some slot) (f : Slot → State) : onAny d s f = .next (f slot) := by
  simp [onAny, h]

/-- `onAny` answers nowhere else. -/
theorem onAny_next {f : Slot → State} (h : onAny d s f = .next t) :
    ∃ slot, s.slotAt d = some slot ∧ t = f slot := by
  unfold onAny at h
  split at h
  · rename_i slot hs
    exact ⟨slot, hs, by cases h; rfl⟩
  · cases h

/-- `onVia` answers on a VIA. -/
theorem onVia_eq {v : Via} {c : Bool} (h : s.slotAt d = some ⟨.via v, c⟩) (f : Via → Bool → Effect Via) :
    onVia d s f =
      .next (s.commit d ⟨.via (f v c).dev, (f v c).contrib⟩ (f v c).ret (f v c).events) := by
  simp [onVia, h]

/-- `onVia` answers nowhere else. -/
theorem onVia_next {f : Via → Bool → Effect Via} (h : onVia d s f = .next t) :
    ∃ v c, s.slotAt d = some ⟨.via v, c⟩ ∧
      t = s.commit d ⟨.via (f v c).dev, (f v c).contrib⟩ (f v c).ret (f v c).events := by
  unfold onVia at h
  split at h
  · rename_i v c hs
    exact ⟨v, c, hs, by cases h; rfl⟩
  all_goals cases h

/-- `onAcia` answers on an ACIA. -/
theorem onAcia_eq {a : Acia} {c : Bool} (h : s.slotAt d = some ⟨.acia a, c⟩) (f : Acia → Bool → Effect Acia) :
    onAcia d s f =
      .next (s.commit d ⟨.acia (f a c).dev, (f a c).contrib⟩ (f a c).ret (f a c).events) := by
  simp [onAcia, h]

/-- `onAcia` answers nowhere else. -/
theorem onAcia_next {f : Acia → Bool → Effect Acia} (h : onAcia d s f = .next t) :
    ∃ a c, s.slotAt d = some ⟨.acia a, c⟩ ∧
      t = s.commit d ⟨.acia (f a c).dev, (f a c).contrib⟩ (f a c).ret (f a c).events := by
  unfold onAcia at h
  split at h
  · rename_i a c hs
    exact ⟨a, c, hs, by cases h; rfl⟩
  all_goals cases h

/-- `onPia` answers on a PIA. -/
theorem onPia_eq {p : Pia} {c : Bool} (h : s.slotAt d = some ⟨.pia p, c⟩) (f : Pia → Bool → Effect Pia) :
    onPia d s f =
      .next (s.commit d ⟨.pia (f p c).dev, (f p c).contrib⟩ (f p c).ret (f p c).events) := by
  simp [onPia, h]

/-- `onPia` answers nowhere else. -/
theorem onPia_next {f : Pia → Bool → Effect Pia} (h : onPia d s f = .next t) :
    ∃ p c, s.slotAt d = some ⟨.pia p, c⟩ ∧
      t = s.commit d ⟨.pia (f p c).dev, (f p c).contrib⟩ (f p c).ret (f p c).events := by
  unfold onPia at h
  split at h
  · rename_i p c hs
    exact ⟨p, c, hs, by cases h; rfl⟩
  all_goals cases h

/-! ### Effects -/

section
variable {α : Type} (x : α) (c : Bool) (b : Byte)

@[simp] theorem silent_dev : (Effect.silent x c).dev = x := rfl
@[simp] theorem silent_contrib : (Effect.silent x c).contrib = c := rfl
@[simp] theorem silent_ret : (Effect.silent x c).ret = .nothing := rfl
@[simp] theorem silent_events : (Effect.silent x c).events = [] := rfl
@[simp] theorem answer_dev : (Effect.answer x c b).dev = x := rfl
@[simp] theorem answer_contrib : (Effect.answer x c b).contrib = c := rfl
@[simp] theorem answer_ret : (Effect.answer x c b).ret = .byte b := rfl
@[simp] theorem answer_events : (Effect.answer x c b).events = [] := rfl

end

section
variable (v : Via) (a : Acia) (p : Pia) (r : Returned) (e : List Event)

@[simp] theorem viaReeval_dev : (viaReeval v r).dev = v := rfl
@[simp] theorem viaReeval_contrib : (viaReeval v r).contrib = v.want := rfl
@[simp] theorem viaReeval_ret : (viaReeval v r).ret = r := rfl
@[simp] theorem viaReeval_events : (viaReeval v r).events = [] := rfl
@[simp] theorem aciaReeval_dev : (aciaReeval a r e).dev = aciaMirrorIrq a := rfl
@[simp] theorem aciaReeval_contrib : (aciaReeval a r e).contrib = a.want := rfl
@[simp] theorem aciaReeval_ret : (aciaReeval a r e).ret = r := rfl
@[simp] theorem aciaReeval_events : (aciaReeval a r e).events = e := rfl
@[simp] theorem piaReeval_dev : (piaReeval p).dev = p := rfl
@[simp] theorem piaReeval_contrib : (piaReeval p).contrib = p.want := rfl
@[simp] theorem piaReeval_ret : (piaReeval p).ret = .nothing := rfl
@[simp] theorem piaReeval_events : (piaReeval p).events = [] := rfl

/-- Mirroring the want in the status IRQ bit changes no other status bit. -/
@[simp] theorem rdrf_aciaMirrorIrq : (aciaMirrorIrq a).rdrf = a.rdrf := by
  simp [aciaMirrorIrq, AciaRecord.rdrf, bitIRQ, bitRDRF]

@[simp] theorem tdre_aciaMirrorIrq : (aciaMirrorIrq a).tdre = a.tdre := by
  simp [aciaMirrorIrq, AciaRecord.tdre, bitIRQ, bitTDRE]

/-- The want does not read the status IRQ bit. -/
@[simp] theorem want_aciaMirrorIrq : (aciaMirrorIrq a).want = a.want := by
  simp only [AciaRecord.want, rdrf_aciaMirrorIrq, tdre_aciaMirrorIrq]
  rfl

/-- After re-evaluation the status IRQ bit is the want (R323). -/
@[simp] theorem irq_aciaMirrorIrq : (aciaMirrorIrq a).irq = a.want := by
  simp [aciaMirrorIrq, AciaRecord.irq, bitIRQ]

end

/-! ### The timer tick -/

/-- Only a counter at 0 falls to 0xFFFF. -/
theorem sub_one_eq_ffff (c : Count16) : c - 1 = 0xFFFF ↔ c = 0 := by
  constructor <;> intro h <;> bv_omega

/-- In `quirk` mode a tick never wraps: a counter at 0 stays, any other falls by one (R141). -/
theorem timerTick_quirk (c l : Count16) : timerTick .quirk c l = (if c = 0 then 0 else c - 1, false) := by
  unfold timerTick
  simp only [sub_one_eq_ffff]
  by_cases h : c = 0#16 <;> simp [h]

/-- In `wrap` mode a tick wraps from 0, and then the counter reloads from its latch (R141). -/
theorem timerTick_wrap (c l : Count16) : timerTick .wrap c l = if c = 0 then (l, true) else (c - 1, false) := by
  unfold timerTick
  simp only [sub_one_eq_ffff]
  by_cases h : c = 0#16 <;> simp [h]

/-- A tick of both timers in `quirk` mode: counters only (R141, R175). -/
theorem tickVia_quirk (v : Via) (c : Bool) :
    tickVia .quirk v c =
      ({ v with t1c := if v.t1c = 0 then 0 else v.t1c - 1, t2c := if v.t2c = 0 then 0 else v.t2c - 1 }, c) := by
  simp [tickVia, tickTimer1, tickTimer2, timerTick_quirk]

/-- A tick of timer 1 in `wrap` mode (R141). -/
theorem tickTimer1_wrap (v : Via) (c : Bool) :
    tickTimer1 .wrap v c =
      if v.t1c = 0 then
        ({ v with t1c := v.t1l, ifr := writeBit v.ifr bitT1 true },
          (writeBit v.ifr bitT1 true &&& v.ier) != 0)
      else ({ v with t1c := v.t1c - 1 }, c) := by
  by_cases h : v.t1c = 0 <;> simp only [tickTimer1, timerTick_wrap, h, if_true, if_false, ViaRecord.want]

/-- A tick of timer 2 in `wrap` mode (R141). -/
theorem tickTimer2_wrap (v : Via) (c : Bool) :
    tickTimer2 .wrap v c =
      if v.t2c = 0 then
        ({ v with t2c := v.t2l, ifr := writeBit v.ifr bitT2 true },
          (writeBit v.ifr bitT2 true &&& v.ier) != 0)
      else ({ v with t2c := v.t2c - 1 }, c) := by
  by_cases h : v.t2c = 0 <;> simp only [tickTimer2, timerTick_wrap, h, if_true, if_false, ViaRecord.want]

/-! ### PIA operands -/

/-- The direction register a PIA control write gives, as a mask (R258). -/
theorem directionOf_eq (v : Byte) : directionOf v = v &&& 0x0F := by
  revert v
  decide

end Sys2Proof.Machine
end

