-- ==== Sys2Proof/Laws/Exec.lean ====
section
/-! SUPPORT. What performing any operation can do, said once: it writes the slot of its own device, keeping the
device's kind, appends events and records, and touches nothing else of the state (spec 10_state.md R26). -/

namespace Sys2Proof.Machine

/-- Everything an operation on device `d` can do to the state. -/
structure TouchesOwnSlot (d : DevId) (s t : State) : Prop where
  slot : ∃ old new, s.slotAt d = some old ∧ new.dev.kind = old.dev.kind ∧ t.slots = s.slots.set d.toNat new
  cfg : t.cfg = s.cfg
  trace : t.trace = s.trace
  index : t.index = s.index
  output : ∃ events, t.output = s.output ++ events
  records : ∃ records, t.records = s.records ++ records

variable {s t : State} {d : DevId}

/-- A committed slot of the same kind is all a commit does. -/
theorem commit_touchesOwnSlot {old new : Slot} {ret : Returned} {events : List Event} (h : s.slotAt d = some old)
    (hk : new.dev.kind = old.dev.kind) : TouchesOwnSlot d s (s.commit d new ret events) :=
  ⟨⟨old, new, h, hk, rfl⟩, rfl, rfl, rfl, ⟨events, rfl⟩, ⟨[], by simp⟩⟩

theorem onVia_touchesOwnSlot {f : Via → Bool → Effect Via} (h : onVia d s f = .next t) : TouchesOwnSlot d s t := by
  obtain ⟨v, c, hs, rfl⟩ := onVia_next h
  exact commit_touchesOwnSlot hs rfl

theorem onAcia_touchesOwnSlot {f : Acia → Bool → Effect Acia} (h : onAcia d s f = .next t) :
    TouchesOwnSlot d s t := by
  obtain ⟨v, c, hs, rfl⟩ := onAcia_next h
  exact commit_touchesOwnSlot hs rfl

theorem onPia_touchesOwnSlot {f : Pia → Bool → Effect Pia} (h : onPia d s f = .next t) : TouchesOwnSlot d s t := by
  obtain ⟨v, c, hs, rfl⟩ := onPia_next h
  exact commit_touchesOwnSlot hs rfl

/-- A `LOAD` answers only with a record of its own kind. -/
theorem execViaLoad_next {n : Byte} (h : execViaLoad d n s = .next t) :
    ∃ r, s.records[n.toNat]? = some (.via r) ∧
      onVia d s (fun v _ => viaReeval { v with toViaRecord := r } .nothing) = .next t := by
  unfold execViaLoad at h
  split at h
  · rename_i r hr
    exact ⟨r, hr, h⟩
  all_goals cases h

theorem execAciaLoad_next {n : Byte} (h : execAciaLoad d n s = .next t) :
    ∃ r, s.records[n.toNat]? = some (.acia r) ∧
      onAcia d s (fun a _ => aciaReeval { a with toAciaRecord := r } .nothing []) = .next t := by
  unfold execAciaLoad at h
  split at h
  · rename_i r hr
    exact ⟨r, hr, h⟩
  all_goals cases h

theorem execPiaLoad_next {n : Byte} (h : execPiaLoad d n s = .next t) :
    ∃ r, s.records[n.toNat]? = some (.pia r) ∧ onPia d s (fun _ _ => piaReeval r) = .next t := by
  unfold execPiaLoad at h
  split at h
  · rename_i r hr
    exact ⟨r, hr, h⟩
  all_goals cases h

/-- Performing an operation writes its own device's slot and touches nothing else. -/
theorem exec_touchesOwnSlot {i : Instr} (h : exec i s = .next t) : TouchesOwnSlot i.dev s t := by
  cases i
  case anySigReset d =>
    obtain ⟨slot, hs, rfl⟩ := onAny_next h
    exact commit_touchesOwnSlot hs (kind_reset _)
  case anySigOther d =>
    obtain ⟨slot, hs, rfl⟩ := onAny_next h
    exact commit_touchesOwnSlot hs rfl
  case anySave d =>
    obtain ⟨slot, hs, rfl⟩ := onAny_next h
    exact ⟨⟨slot, slot, hs, rfl, rfl⟩, rfl, rfl, rfl, ⟨[], rfl⟩, ⟨_, rfl⟩⟩
  case viaLoad d n =>
    obtain ⟨r, -, h⟩ := execViaLoad_next h
    exact onVia_touchesOwnSlot h
  case aciaLoad d n =>
    obtain ⟨r, -, h⟩ := execAciaLoad_next h
    exact onAcia_touchesOwnSlot h
  case piaLoad d n =>
    obtain ⟨r, -, h⟩ := execPiaLoad_next h
    exact onPia_touchesOwnSlot h
  all_goals first
    | exact onVia_touchesOwnSlot h
    | exact onAcia_touchesOwnSlot h
    | exact onPia_touchesOwnSlot h

/-- A step performs an operation, or the trace is exhausted and nothing happens. -/
theorem step_next (h : step s = .next t) :
    s.cfg.valid = true ∧
      ((s.fetch = none ∧ t = s) ∨
        ∃ w i, s.fetch = some w ∧ decode s.cfg.kinds w = .ok i ∧ exec i s.advance = .next t) := by
  unfold step at h
  split at h
  · rename_i hv
    refine ⟨hv, ?_⟩
    split at h
    · rename_i hf
      exact .inl ⟨hf, by cases h; rfl⟩
    · rename_i w hf
      split at h
      · rename_i i hd
        exact .inr ⟨w, i, hf, hd, h⟩
      · cases h
  · cases h

end Sys2Proof.Machine
end

