-- ==== Sys2Proof/Laws/PerInstr.lean ====
section
/-! SUPPORT. A statement about every operation as syntax, one lemma per constructor: its canonical word has the fixed
bits of its row of spec/opcode_table.json and names its device. -/

namespace Sys2Proof.Laws.EncodesRow

/-- The canonical word of an operation fits the operation's row and carries its device index (spec 30_encoding.md
R120, R121). -/
def Statement (i : Instr) : Prop := i.row.fits (encode i) = true ∧ (unpackWord (encode i)).dev = i.dev

/-- The bits 15 to 0 of an assembled word do not depend on the device index. -/
theorem low16_packWord (f : WordFields) :
    (packWord f).extractLsb' 0 16 = (packWord { f with dev := 0 }).extractLsb' 0 16 := by
  apply BitVec.eq_of_getLsbD_eq
  intro i hi
  simp only [BitVec.getLsbD_extractLsb', getLsbD_packWord]
  grind

/-- A row is fitted or not whatever the device index is. -/
theorem fits_packWord (r : TableRow) (f : WordFields) :
    r.fits (packWord f) = r.fits (packWord { f with dev := 0 }) := by
  simp only [TableRow.fits, low16_packWord f]

/-- A row that fixes no bit of `data` is fitted whatever `data` is. -/
theorem fits_data (r : TableRow) (k a : BitVec 4) (x : Byte) (hr : r.mask &&& 0x00FF = 0) :
    r.fits (packWord ⟨0, k, a, x⟩) = r.fits (packWord ⟨0, k, a, 0⟩) := by
  simp only [TableRow.fits]
  congr 1
  apply BitVec.eq_of_getLsbD_eq
  intro i hi
  have hm : i < 8 → r.mask.getLsbD i = false := by
    intro h8
    have h := congrArg (fun z : BitVec 16 => z.getLsbD i) hr
    have h1 : (0x00FF#16).getLsbD i = true := by
      have : i = 0 ∨ i = 1 ∨ i = 2 ∨ i = 3 ∨ i = 4 ∨ i = 5 ∨ i = 6 ∨ i = 7 := by omega
      rcases this with h | h | h | h | h | h | h | h <;> subst h <;> rfl
    simpa [BitVec.getLsbD_and, h1] using h
  simp only [BitVec.getLsbD_and, BitVec.getLsbD_extractLsb', getLsbD_packWord]
  grind

/-- The lemma of an operation whose word is a numeral but for the device index. -/
theorem of_closed {i : Instr} {d : DevId} {k a : BitVec 4} {x : Byte} {r : TableRow} (he : encodeFields i = ⟨d, k, a, x⟩)
    (hd : i.dev = d) (hr : i.row = r) (hf : r.fits (packWord ⟨0, k, a, x⟩) = true) : Statement i := by
  refine ⟨?_, by simp [encode, he, hd]⟩
  rw [encode, he, fits_packWord, hr]
  exact hf

/-- The lemma of an operation whose operand is the whole `data` byte. -/
theorem of_byte {i : Instr} {d : DevId} {k a : BitVec 4} {x : Byte} {r : TableRow} (he : encodeFields i = ⟨d, k, a, x⟩)
    (hd : i.dev = d) (hr : i.row = r) (hm : r.mask &&& 0x00FF = 0) (hf : r.fits (packWord ⟨0, k, a, 0⟩) = true) :
    Statement i :=
  of_closed he hd hr ((fits_data r k a x hm).trans hf)

theorem viaRdOrb (d : DevId) : Statement (.viaRdOrb d) :=
  of_closed (r := ⟨.via, 0x0000, 0xFF00⟩) rfl rfl rfl (by decide)

theorem viaRdOra (d : DevId) : Statement (.viaRdOra d) :=
  of_closed (r := ⟨.via, 0x0100, 0xFF00⟩) rfl rfl rfl (by decide)

theorem viaRdDdrb (d : DevId) : Statement (.viaRdDdrb d) :=
  of_closed (r := ⟨.via, 0x0200, 0xFF00⟩) rfl rfl rfl (by decide)

theorem viaRdDdra (d : DevId) : Statement (.viaRdDdra d) :=
  of_closed (r := ⟨.via, 0x0300, 0xFF00⟩) rfl rfl rfl (by decide)

theorem viaRdT1cl (d : DevId) : Statement (.viaRdT1cl d) :=
  of_closed (r := ⟨.via, 0x0400, 0xFF00⟩) rfl rfl rfl (by decide)

theorem viaRdT1ch (d : DevId) : Statement (.viaRdT1ch d) :=
  of_closed (r := ⟨.via, 0x0500, 0xFF00⟩) rfl rfl rfl (by decide)

theorem viaRdT1ll (d : DevId) : Statement (.viaRdT1ll d) :=
  of_closed (r := ⟨.via, 0x0600, 0xFF00⟩) rfl rfl rfl (by decide)

theorem viaRdT1lh (d : DevId) : Statement (.viaRdT1lh d) :=
  of_closed (r := ⟨.via, 0x0700, 0xFF00⟩) rfl rfl rfl (by decide)

theorem viaRdT2cl (d : DevId) : Statement (.viaRdT2cl d) :=
  of_closed (r := ⟨.via, 0x0800, 0xFF00⟩) rfl rfl rfl (by decide)

theorem viaRdT2ch (d : DevId) : Statement (.viaRdT2ch d) :=
  of_closed (r := ⟨.via, 0x0900, 0xFF00⟩) rfl rfl rfl (by decide)

theorem viaRdSr (d : DevId) : Statement (.viaRdSr d) :=
  of_closed (r := ⟨.via, 0x0A00, 0xFF00⟩) rfl rfl rfl (by decide)

theorem viaRdAcr (d : DevId) : Statement (.viaRdAcr d) :=
  of_closed (r := ⟨.via, 0x0B00, 0xFF00⟩) rfl rfl rfl (by decide)

theorem viaRdPcr (d : DevId) : Statement (.viaRdPcr d) :=
  of_closed (r := ⟨.via, 0x0C00, 0xFF00⟩) rfl rfl rfl (by decide)

theorem viaRdIfr (d : DevId) : Statement (.viaRdIfr d) :=
  of_closed (r := ⟨.via, 0x0D00, 0xFF00⟩) rfl rfl rfl (by decide)

theorem viaRdIer (d : DevId) : Statement (.viaRdIer d) :=
  of_closed (r := ⟨.via, 0x0E00, 0xFF00⟩) rfl rfl rfl (by decide)

theorem viaRdOrax (d : DevId) : Statement (.viaRdOrax d) :=
  of_closed (r := ⟨.via, 0x0F00, 0xFF00⟩) rfl rfl rfl (by decide)

theorem viaWrOrb (d : DevId) (v : Byte) : Statement (.viaWrOrb d v) :=
  of_byte (r := ⟨.via, 0x1000, 0xFF00⟩) rfl rfl rfl (by decide) (by decide)

theorem viaWrOra (d : DevId) (v : Byte) : Statement (.viaWrOra d v) :=
  of_byte (r := ⟨.via, 0x1100, 0xFF00⟩) rfl rfl rfl (by decide) (by decide)

theorem viaWrDdrb (d : DevId) (v : Byte) : Statement (.viaWrDdrb d v) :=
  of_byte (r := ⟨.via, 0x1200, 0xFF00⟩) rfl rfl rfl (by decide) (by decide)

theorem viaWrDdra (d : DevId) (v : Byte) : Statement (.viaWrDdra d v) :=
  of_byte (r := ⟨.via, 0x1300, 0xFF00⟩) rfl rfl rfl (by decide) (by decide)

theorem viaWrT1cl (d : DevId) (v : Byte) : Statement (.viaWrT1cl d v) :=
  of_byte (r := ⟨.via, 0x1400, 0xFF00⟩) rfl rfl rfl (by decide) (by decide)

theorem viaWrT1ch (d : DevId) (v : Byte) : Statement (.viaWrT1ch d v) :=
  of_byte (r := ⟨.via, 0x1500, 0xFF00⟩) rfl rfl rfl (by decide) (by decide)

theorem viaWrT1ll (d : DevId) (v : Byte) : Statement (.viaWrT1ll d v) :=
  of_byte (r := ⟨.via, 0x1600, 0xFF00⟩) rfl rfl rfl (by decide) (by decide)

theorem viaWrT1lh (d : DevId) (v : Byte) : Statement (.viaWrT1lh d v) :=
  of_byte (r := ⟨.via, 0x1700, 0xFF00⟩) rfl rfl rfl (by decide) (by decide)

theorem viaWrT2cl (d : DevId) (v : Byte) : Statement (.viaWrT2cl d v) :=
  of_byte (r := ⟨.via, 0x1800, 0xFF00⟩) rfl rfl rfl (by decide) (by decide)

theorem viaWrT2ch (d : DevId) (v : Byte) : Statement (.viaWrT2ch d v) :=
  of_byte (r := ⟨.via, 0x1900, 0xFF00⟩) rfl rfl rfl (by decide) (by decide)

theorem viaWrSr (d : DevId) (v : Byte) : Statement (.viaWrSr d v) :=
  of_byte (r := ⟨.via, 0x1A00, 0xFF00⟩) rfl rfl rfl (by decide) (by decide)

theorem viaWrAcr (d : DevId) (v : Byte) : Statement (.viaWrAcr d v) :=
  of_byte (r := ⟨.via, 0x1B00, 0xFF00⟩) rfl rfl rfl (by decide) (by decide)

theorem viaWrPcr (d : DevId) (v : Byte) : Statement (.viaWrPcr d v) :=
  of_byte (r := ⟨.via, 0x1C00, 0xFF00⟩) rfl rfl rfl (by decide) (by decide)

theorem viaWrIfr (d : DevId) (v : Byte) : Statement (.viaWrIfr d v) :=
  of_byte (r := ⟨.via, 0x1D00, 0xFF00⟩) rfl rfl rfl (by decide) (by decide)

theorem viaWrIer (d : DevId) (v : Byte) : Statement (.viaWrIer d v) :=
  of_byte (r := ⟨.via, 0x1E00, 0xFF00⟩) rfl rfl rfl (by decide) (by decide)

theorem viaWrOrax (d : DevId) (v : Byte) : Statement (.viaWrOrax d v) :=
  of_byte (r := ⟨.via, 0x1F00, 0xFF00⟩) rfl rfl rfl (by decide) (by decide)

theorem viaStep (d : DevId) : Statement (.viaStep d) :=
  of_closed (r := ⟨.via, 0x2000, 0xF000⟩) rfl rfl rfl (by decide)

theorem viaPinA (d : DevId) (v : Byte) : Statement (.viaPinA d v) :=
  of_byte (r := ⟨.via, 0x6000, 0xFF00⟩) rfl rfl rfl (by decide) (by decide)

theorem viaPinB (d : DevId) (v : Byte) : Statement (.viaPinB d v) :=
  of_byte (r := ⟨.via, 0x6100, 0xFF00⟩) rfl rfl rfl (by decide) (by decide)

theorem aciaRdData (d : DevId) : Statement (.aciaRdData d) :=
  of_closed (r := ⟨.acia, 0x0000, 0xF300⟩) rfl rfl rfl (by decide)

theorem aciaRdStat (d : DevId) : Statement (.aciaRdStat d) :=
  of_closed (r := ⟨.acia, 0x0100, 0xF300⟩) rfl rfl rfl (by decide)

theorem aciaRdCtrl (d : DevId) : Statement (.aciaRdCtrl d) :=
  of_closed (r := ⟨.acia, 0x0200, 0xF300⟩) rfl rfl rfl (by decide)

theorem aciaRdTest (d : DevId) : Statement (.aciaRdTest d) :=
  of_closed (r := ⟨.acia, 0x0300, 0xF300⟩) rfl rfl rfl (by decide)

theorem aciaWrData (d : DevId) (v : Byte) : Statement (.aciaWrData d v) :=
  of_byte (r := ⟨.acia, 0x1000, 0xF300⟩) rfl rfl rfl (by decide) (by decide)

theorem aciaWrCmd (d : DevId) (v : Byte) : Statement (.aciaWrCmd d v) :=
  of_byte (r := ⟨.acia, 0x1100, 0xF300⟩) rfl rfl rfl (by decide) (by decide)

theorem aciaWrCtrl (d : DevId) (v : Byte) : Statement (.aciaWrCtrl d v) :=
  of_byte (r := ⟨.acia, 0x1200, 0xF300⟩) rfl rfl rfl (by decide) (by decide)

theorem aciaWrTest (d : DevId) (v : Byte) : Statement (.aciaWrTest d v) :=
  of_byte (r := ⟨.acia, 0x1300, 0xF300⟩) rfl rfl rfl (by decide) (by decide)

theorem aciaStep (d : DevId) : Statement (.aciaStep d) :=
  of_closed (r := ⟨.acia, 0x2000, 0xF000⟩) rfl rfl rfl (by decide)

theorem aciaRxb (d : DevId) (b : Byte) : Statement (.aciaRxb d b) :=
  of_byte (r := ⟨.acia, 0x4000, 0xF000⟩) rfl rfl rfl (by decide) (by decide)

theorem piaRdPb (d : DevId) : Statement (.piaRdPb d) :=
  of_closed (r := ⟨.pia, 0x0000, 0xF300⟩) rfl rfl rfl (by decide)

theorem piaRdPa (d : DevId) : Statement (.piaRdPa d) :=
  of_closed (r := ⟨.pia, 0x0100, 0xF300⟩) rfl rfl rfl (by decide)

theorem piaRdCrb (d : DevId) : Statement (.piaRdCrb d) :=
  of_closed (r := ⟨.pia, 0x0200, 0xF300⟩) rfl rfl rfl (by decide)

theorem piaRdCra (d : DevId) : Statement (.piaRdCra d) :=
  of_closed (r := ⟨.pia, 0x0300, 0xF300⟩) rfl rfl rfl (by decide)

theorem piaWrPb (d : DevId) (v : Byte) : Statement (.piaWrPb d v) :=
  of_byte (r := ⟨.pia, 0x1000, 0xF300⟩) rfl rfl rfl (by decide) (by decide)

theorem piaWrPa (d : DevId) (v : Byte) : Statement (.piaWrPa d v) :=
  of_byte (r := ⟨.pia, 0x1100, 0xF300⟩) rfl rfl rfl (by decide) (by decide)

theorem piaWrCrb (d : DevId) (v : Byte) : Statement (.piaWrCrb d v) :=
  of_byte (r := ⟨.pia, 0x1200, 0xF300⟩) rfl rfl rfl (by decide) (by decide)

theorem piaWrCra (d : DevId) (v : Byte) : Statement (.piaWrCra d v) :=
  of_byte (r := ⟨.pia, 0x1300, 0xF300⟩) rfl rfl rfl (by decide) (by decide)

theorem piaLineCa1 (d : DevId) (lv : Bool) : Statement (.piaLineCa1 d lv) :=
  of_closed (r := ⟨.pia, 0x5000, 0xFFFE⟩) rfl rfl rfl (by cases lv <;> decide)

theorem piaLineCa2 (d : DevId) (lv : Bool) : Statement (.piaLineCa2 d lv) :=
  of_closed (r := ⟨.pia, 0x5100, 0xFFFE⟩) rfl rfl rfl (by cases lv <;> decide)

theorem piaLineCb1 (d : DevId) (lv : Bool) : Statement (.piaLineCb1 d lv) :=
  of_closed (r := ⟨.pia, 0x5200, 0xFFFE⟩) rfl rfl rfl (by cases lv <;> decide)

theorem piaLineCb2 (d : DevId) (lv : Bool) : Statement (.piaLineCb2 d lv) :=
  of_closed (r := ⟨.pia, 0x5300, 0xFFFE⟩) rfl rfl rfl (by cases lv <;> decide)

theorem piaStep (d : DevId) : Statement (.piaStep d) :=
  of_closed (r := ⟨.pia, 0x2000, 0xF000⟩) rfl rfl rfl (by decide)

theorem anySigReset (d : DevId) : Statement (.anySigReset d) :=
  of_closed (r := ⟨.any, 0x3000, 0xFF00⟩) rfl rfl rfl (by decide)

theorem aciaSigNmi (d : DevId) : Statement (.aciaSigNmi d) :=
  of_closed (r := ⟨.acia, 0x3100, 0xFF00⟩) rfl rfl rfl (by decide)

theorem aciaSigIrq (d : DevId) : Statement (.aciaSigIrq d) :=
  of_closed (r := ⟨.acia, 0x3200, 0xFF00⟩) rfl rfl rfl (by decide)

theorem anySigOther (d : DevId) : Statement (.anySigOther d) :=
  of_closed (r := ⟨.any, 0x3F00, 0xFF00⟩) rfl rfl rfl (by decide)

theorem viaSigNmi (d : DevId) : Statement (.viaSigNmi d) :=
  of_closed (r := ⟨.via, 0x3100, 0xFF00⟩) rfl rfl rfl (by decide)

theorem viaSigIrq (d : DevId) : Statement (.viaSigIrq d) :=
  of_closed (r := ⟨.via, 0x3200, 0xFF00⟩) rfl rfl rfl (by decide)

theorem piaSigNmi (d : DevId) : Statement (.piaSigNmi d) :=
  of_closed (r := ⟨.pia, 0x3100, 0xFF00⟩) rfl rfl rfl (by decide)

theorem piaSigIrq (d : DevId) : Statement (.piaSigIrq d) :=
  of_closed (r := ⟨.pia, 0x3200, 0xFF00⟩) rfl rfl rfl (by decide)

theorem anySave (d : DevId) : Statement (.anySave d) :=
  of_closed (r := ⟨.any, 0x7000, 0xF000⟩) rfl rfl rfl (by decide)

theorem viaLoad (d : DevId) (n : Byte) : Statement (.viaLoad d n) :=
  of_byte (r := ⟨.via, 0x8000, 0xF000⟩) rfl rfl rfl (by decide) (by decide)

theorem aciaLoad (d : DevId) (n : Byte) : Statement (.aciaLoad d n) :=
  of_byte (r := ⟨.acia, 0x8000, 0xF000⟩) rfl rfl rfl (by decide) (by decide)

theorem piaLoad (d : DevId) (n : Byte) : Statement (.piaLoad d n) :=
  of_byte (r := ⟨.pia, 0x8000, 0xF000⟩) rfl rfl rfl (by decide) (by decide)

theorem aciaSink (d : DevId) (a : Bool) : Statement (.aciaSink d a) :=
  of_closed (r := ⟨.acia, 0x9000, 0xF0FE⟩) rfl rfl rfl (by cases a <;> decide)

end Sys2Proof.Laws.EncodesRow
end

