-- ==== Sys2Proof/Laws/Runs.lean ====
section
/-! SUPPORT. Decoding a word given by its fields, and runs of operations. -/

namespace Sys2Proof

/-- Decoding an assembled word at a device that exists: the kind code picks the operation kind (R122). -/
theorem decode_packWord_at {kinds : List Kind} {d : DevId} {k : Kind} (h : kinds[d.toNat]? = some k)
    (op arg : BitVec 4) (x : Byte) :
    decode kinds (packWord ⟨d, op, arg, x⟩) =
      match opKindOf op with
      | none => .error .reservedKind
      | some o => decodeOp k o ⟨d, op, arg, x⟩ := by
  rw [decode_packWord]
  cases hk : opKindOf op <;> simp only [decodeFields, h, hk]

/-- The masked offset of a 4-byte window does not see the upper offset bits (R72). -/
@[simp] theorem maskOffset2_append (hi off : BitVec 2) : maskOffset2 (hi ++ off) = off := by
  revert hi off
  decide

end Sys2Proof

namespace Sys2Proof.Machine

@[simp] theorem runOps_nil (s : State) : runOps [] s = .next s := rfl

/-- A run that starts with an operation that completes. -/
theorem runOps_cons {i : Instr} {s t : State} (h : exec i s = .next t) (rest : List Instr) :
    runOps (i :: rest) s = runOps rest t := by
  simp [runOps, h]

/-- A run that completes, then one more operation. -/
theorem runOps_append {ops : List Instr} {s t : State} (h : runOps ops s = .next t) (more : List Instr) :
    runOps (ops ++ more) s = runOps more t := by
  induction ops generalizing s with
  | nil =>
    cases h
    rfl
  | cons i rest ih =>
    rw [runOps] at h
    rw [List.cons_append, runOps]
    cases he : exec i s with
    | next u =>
      rw [he] at h
      exact ih h
    | fault r =>
      rw [he] at h
      cases h
    | refused r =>
      rw [he] at h
      cases h

/-- A run keeps the configuration (R6). -/
theorem runOps_cfg {ops : List Instr} {s t : State} (h : runOps ops s = .next t) : t.cfg = s.cfg := by
  induction ops generalizing s with
  | nil =>
    cases h
    rfl
  | cons i rest ih =>
    rw [runOps] at h
    cases he : exec i s with
    | next u =>
      rw [he] at h
      exact (ih h).trans (exec_touchesOwnSlot he).cfg
    | fault r =>
      rw [he] at h
      cases h
    | refused r =>
      rw [he] at h
      cases h

end Sys2Proof.Machine
end

