-- ==== Sys2Proof/Tests/Slice0.lean ====
section
/-! SUPPORT. Tests. Expected values are those of spec 95_test_vectors.md (Parts 2 to 4) or worked by hand from the
rule named; none is the model's own answer. Then, for each obligation with hypotheses, a state and operands that meet
them. -/

namespace Sys2Proof.Tests
open Sys2Proof.Machine

/-! ### Small states and what is read of an outcome -/

/-- The reference block with device `d` as given and its contribution `c`. -/
def blockWith (d : Nat) (dev : Device) (c : Bool) : State :=
  { State.reset with slots := State.reset.slots.set d ⟨dev, c⟩ }

/-- The same with the alternative timer mode. -/
def inWrapMode (s : State) : State := { s with cfg := { s.cfg with timerMode := .wrap } }

/-- Device 0 is a VIA with these registers, pins low, contribution honest. -/
def viaBlock (r : ViaRecord) : State := blockWith 0 (.via { r with paIn := 0x00, pbIn := 0x00 }) r.want

/-- Device 0 is a VIA with these registers and pins. -/
def viaPins (r : ViaRecord) (pa pb : Byte) : State := blockWith 0 (.via { r with paIn := pa, pbIn := pb }) r.want

/-- Device 1 is an ACIA with these registers and sink, contribution honest. -/
def aciaBlock (r : AciaRecord) (sink : Bool) : State := blockWith 1 (.acia { r with sinkAttached := sink }) r.want

/-- Device 2 is a PIA with this state, contribution honest. -/
def piaBlock (p : Pia) : State := blockWith 2 (.pia p) p.want

/-- The byte an operation returned. -/
def byteOf : Outcome → Option Byte
  | .next t =>
    match t.ret with
    | .byte b => some b
    | _ => none
  | _ => none

/-- Device `d` after an operation. -/
def devOf (d : Nat) : Outcome → Option Device
  | .next t => (t.slots[d]?).map Slot.dev
  | _ => none

/-- The contributions after an operation. -/
def contribsOf : Outcome → Option (List Bool)
  | .next t => some (t.slots.map Slot.contrib)
  | _ => none

/-- The events emitted so far. -/
def eventsOf : Outcome → Option (List Event)
  | .next t => some t.output
  | _ => none

/-- The registers of a VIA after an operation, in the pin-free form. -/
def viaOf (o : Outcome) : Option ViaRecord :=
  match devOf 0 o with
  | some (.via v) => some v.toViaRecord
  | _ => none

/-- The registers of the ACIA after an operation. -/
def aciaOf (o : Outcome) : Option AciaRecord :=
  match devOf 1 o with
  | some (.acia a) => some a.toAciaRecord
  | _ => none

/-- The PIA after an operation. -/
def piaOf (o : Outcome) : Option Pia :=
  match devOf 2 o with
  | some (.pia p) => some p
  | _ => none

/-- The device kinds of the reference block. -/
def kinds3 : List Kind := Config.reference.kinds

/-! ### Well-formedness: each check refuses an ill-formed operation (R122, R123) -/

theorem test_wf_no_such_device : (Instr.anySave 3).illFormed kinds3 = some .noSuchDevice := by decide
theorem test_wf_rxb_to_via : (Instr.aciaRxb 0 0x41).illFormed kinds3 = some .kindLacksOperation := by decide
theorem test_wf_line_to_acia : (Instr.piaLineCa1 1 true).illFormed kinds3 = some .kindLacksOperation := by decide
theorem test_wf_pin_to_pia : (Instr.viaPinB 2 0x00).illFormed kinds3 = some .kindLacksOperation := by decide
theorem test_wf_sink_to_via : (Instr.aciaSink 0 true).illFormed kinds3 = some .kindLacksOperation := by decide
theorem test_wf_accepts : (Instr.piaLoad 2 3).WellFormed kinds3 := by decide

/-! ### Decoding: words written out from the encodings of R101 to R103, R120 and R121 -/

/-- `0x00 0 off 00`: the sixteen VIA reads. -/
theorem test_decode_via_reads :
    [0x000000, 0x000100, 0x000200, 0x000300, 0x000400, 0x000500, 0x000600, 0x000700,
     0x000800, 0x000900, 0x000A00, 0x000B00, 0x000C00, 0x000D00, 0x000E00, 0x000F00].map (fun w => decode kinds3 (BitVec.ofNat 24 w)) =
    [.ok (.viaRdOrb 0), .ok (.viaRdOra 0), .ok (.viaRdDdrb 0), .ok (.viaRdDdra 0),
     .ok (.viaRdT1cl 0), .ok (.viaRdT1ch 0), .ok (.viaRdT1ll 0), .ok (.viaRdT1lh 0),
     .ok (.viaRdT2cl 0), .ok (.viaRdT2ch 0), .ok (.viaRdSr 0), .ok (.viaRdAcr 0),
     .ok (.viaRdPcr 0), .ok (.viaRdIfr 0), .ok (.viaRdIer 0), .ok (.viaRdOrax 0)] := by
  decide

/-- `0x00 1 off v`: the sixteen VIA writes. -/
theorem test_decode_via_writes :
    [0x001050, 0x001151, 0x001252, 0x001353, 0x001454, 0x001555, 0x001656, 0x001757,
     0x001858, 0x001959, 0x001A5A, 0x001B5B, 0x001C5C, 0x001D5D, 0x001E5E, 0x001F5F].map (fun w => decode kinds3 (BitVec.ofNat 24 w)) =
    [.ok (.viaWrOrb 0 0x50), .ok (.viaWrOra 0 0x51), .ok (.viaWrDdrb 0 0x52), .ok (.viaWrDdra 0 0x53),
     .ok (.viaWrT1cl 0 0x54), .ok (.viaWrT1ch 0 0x55), .ok (.viaWrT1ll 0 0x56), .ok (.viaWrT1lh 0 0x57),
     .ok (.viaWrT2cl 0 0x58), .ok (.viaWrT2ch 0 0x59), .ok (.viaWrSr 0 0x5A), .ok (.viaWrAcr 0 0x5B),
     .ok (.viaWrPcr 0 0x5C), .ok (.viaWrIfr 0 0x5D), .ok (.viaWrIer 0 0x5E), .ok (.viaWrOrax 0 0x5F)] := by
  decide

/-- `STEP`, `PIN`, `SIG NMI`, `SIG IRQ` and `LOAD` of a VIA. -/
theorem test_decode_via_others :
    [0x002A5A, 0x00605C, 0x006155, 0x003100, 0x003200, 0x008007].map (fun w => decode kinds3 (BitVec.ofNat 24 w)) =
    [.ok (.viaStep 0), .ok (.viaPinA 0 0x5C), .ok (.viaPinB 0 0x55), .ok (.viaSigNmi 0),
     .ok (.viaSigIrq 0), .ok (.viaLoad 0 7)] := by
  decide

/-- `0x01 0 off 00`, the offset as presented masked to its low two bits. -/
theorem test_decode_acia_reads :
    [0x010000, 0x010100, 0x010200, 0x010300, 0x010500, 0x010F00].map (fun w => decode kinds3 (BitVec.ofNat 24 w)) =
    [.ok (.aciaRdData 1), .ok (.aciaRdStat 1), .ok (.aciaRdCtrl 1), .ok (.aciaRdTest 1),
     .ok (.aciaRdStat 1), .ok (.aciaRdTest 1)] := by
  decide

/-- `0x01 1 off v`. -/
theorem test_decode_acia_writes :
    [0x011024, 0x011125, 0x011226, 0x011327, 0x011E24].map (fun w => decode kinds3 (BitVec.ofNat 24 w)) =
    [.ok (.aciaWrData 1 0x24), .ok (.aciaWrCmd 1 0x25), .ok (.aciaWrCtrl 1 0x26), .ok (.aciaWrTest 1 0x27),
     .ok (.aciaWrCtrl 1 0x24)] := by
  decide

/-- `STEP`, `RXB`, `SIG NMI`, `SIG IRQ`, `LOAD` and `SINK` of an ACIA. -/
theorem test_decode_acia_others :
    [0x012000, 0x014041, 0x013100, 0x013200, 0x018000, 0x019001, 0x019000].map (fun w => decode kinds3 (BitVec.ofNat 24 w)) =
    [.ok (.aciaStep 1), .ok (.aciaRxb 1 0x41), .ok (.aciaSigNmi 1), .ok (.aciaSigIrq 1),
     .ok (.aciaLoad 1 0), .ok (.aciaSink 1 true), .ok (.aciaSink 1 false)] := by
  decide

/-- `0x02 0 off 00`. -/
theorem test_decode_pia_reads :
    [0x020000, 0x020100, 0x020200, 0x020300, 0x020700].map (fun w => decode kinds3 (BitVec.ofNat 24 w)) =
    [.ok (.piaRdPb 2), .ok (.piaRdPa 2), .ok (.piaRdCrb 2), .ok (.piaRdCra 2),
     .ok (.piaRdCra 2)] := by
  decide

/-- `0x02 1 off v`. -/
theorem test_decode_pia_writes :
    [0x021010, 0x021111, 0x021212, 0x021313].map (fun w => decode kinds3 (BitVec.ofNat 24 w)) =
    [.ok (.piaWrPb 2 0x10), .ok (.piaWrPa 2 0x11), .ok (.piaWrCrb 2 0x12), .ok (.piaWrCra 2 0x13)] := by
  decide

/-- `LINE`, `STEP`, `SIG NMI`, `SIG IRQ` and `LOAD` of a PIA. -/
theorem test_decode_pia_others :
    [0x025001, 0x025100, 0x025201, 0x025300, 0x022000, 0x023100, 0x023200, 0x028003].map (fun w => decode kinds3 (BitVec.ofNat 24 w)) =
    [.ok (.piaLineCa1 2 true), .ok (.piaLineCa2 2 false), .ok (.piaLineCb1 2 true), .ok (.piaLineCb2 2 false),
     .ok (.piaStep 2), .ok (.piaSigNmi 2), .ok (.piaSigIrq 2), .ok (.piaLoad 2 3)] := by
  decide

/-- `SIG RESET`, `SIG OTHER` and `SAVE`, for all kinds. -/
theorem test_decode_any :
    [0x003000, 0x013000, 0x023F00, 0x007000, 0x017000].map (fun w => decode kinds3 (BitVec.ofNat 24 w)) =
    [.ok (.anySigReset 0), .ok (.anySigReset 1), .ok (.anySigOther 2), .ok (.anySave 0),
     .ok (.anySave 1)] := by
  decide

/-- The refused words of 95_test_vectors.md B1. -/
theorem test_decode_refused :
    [0x030000, 0x00A000, 0x013300, 0x004041, 0x015001, 0x026100, 0x009001, 0x025401,
     0x025002, 0x006200, 0x019002].map (fun w => decode kinds3 (BitVec.ofNat 24 w)) =
    [.error .noSuchDevice, .error .reservedKind, .error .reservedSignal, .error .kindLacksOperation,
     .error .kindLacksOperation, .error .kindLacksOperation, .error .kindLacksOperation, .error .mustBeZero,
     .error .mustBeZero, .error .mustBeZero, .error .mustBeZero] := by
  decide

theorem test_encode_canonical : encode (.viaRdT1cl 0) = 0x000400 ∧ encode (.viaStep 0) = 0x002000 := by decide

/-- A table word has no device index: it is read as one for device 0, a VIA (log entry 17). -/
theorem test_table_word : decodeTableWord 16 0x1E00 = some (.viaWrIer 0 0) ∧ decodeTableWord 16 0x4000 = none := by
  decide

/-! ### VIA (95_test_vectors.md B2 to B4) -/

theorem test_rd_orb :
    byteOf (exec (.viaRdOrb 0) (viaPins { viaResetRecord with orb := 0xF0, ddrb := 0x3C } 0x00 0x0F)) = some 0x33 := by
  decide
theorem test_rd_ora :
    byteOf (exec (.viaRdOra 0) (viaPins { viaResetRecord with ora := 0xAA } 0x5C 0x00)) = some 0x5C := by
  decide
theorem test_rd_orax :
    byteOf (exec (.viaRdOrax 0) (viaPins { viaResetRecord with ora := 0xFF, ddra := 0x0F } 0x00 0x00)) = some 0x0F := by
  decide
theorem test_rd_ddrb :
    byteOf (exec (.viaRdDdrb 0) (viaBlock { viaResetRecord with ddrb := 0x3C, ddra := 0x55 })) = some 0x3C := by
  decide
theorem test_rd_ddra :
    byteOf (exec (.viaRdDdra 0) (viaBlock { viaResetRecord with ddrb := 0x3C, ddra := 0x55 })) = some 0x55 := by
  decide
theorem test_rd_t1cl :
    (byteOf (exec (.viaRdT1cl 0) (viaBlock { viaResetRecord with t1c := 0x1234, ifr := 0x60, ier := 0x40 })), contribsOf (exec (.viaRdT1cl 0) (viaBlock { viaResetRecord with t1c := 0x1234, ifr := 0x60, ier := 0x40 }))) =
      (some 0x34, some [false, false, false]) := by
  decide
theorem test_rd_t1cl_flag :
    (viaOf (exec (.viaRdT1cl 0) (viaBlock { viaResetRecord with t1c := 0x1234, ifr := 0x60, ier := 0x40 }))).map (fun v => v.ifr) = some 0x20 := by
  decide
theorem test_rd_t1ch :
    byteOf (exec (.viaRdT1ch 0) (viaBlock { viaResetRecord with t1c := 0x1234, ifr := 0x60, ier := 0x40 })) = some 0x12 := by
  decide
theorem test_rd_t1ll :
    byteOf (exec (.viaRdT1ll 0) (viaBlock { viaResetRecord with t1l := 0xBEEF, t1c := 0x0001 })) = some 0xEF := by
  decide
theorem test_rd_t1lh :
    byteOf (exec (.viaRdT1lh 0) (viaBlock { viaResetRecord with t1l := 0xBEEF, t1c := 0x0001 })) = some 0xBE := by
  decide
theorem test_rd_t2cl :
    (byteOf (exec (.viaRdT2cl 0) (viaBlock { viaResetRecord with t2c := 0x00FF, ifr := 0x20, ier := 0x20 })), contribsOf (exec (.viaRdT2cl 0) (viaBlock { viaResetRecord with t2c := 0x00FF, ifr := 0x20, ier := 0x20 }))) =
      (some 0xFF, some [false, false, false]) := by
  decide
theorem test_rd_t2ch :
    byteOf (exec (.viaRdT2ch 0) (viaBlock { viaResetRecord with t2c := 0x27FF })) = some 0x27 := by
  decide
theorem test_rd_sr :
    byteOf (exec (.viaRdSr 0) (viaBlock { viaResetRecord with sr := 0x5A, acr := 0xC3, pcr := 0x0E })) = some 0x5A := by
  decide
theorem test_rd_acr :
    byteOf (exec (.viaRdAcr 0) (viaBlock { viaResetRecord with sr := 0x5A, acr := 0xC3, pcr := 0x0E })) = some 0xC3 := by
  decide
theorem test_rd_pcr :
    byteOf (exec (.viaRdPcr 0) (viaBlock { viaResetRecord with sr := 0x5A, acr := 0xC3, pcr := 0x0E })) = some 0x0E := by
  decide
theorem test_rd_ifr_not_enabled :
    byteOf (exec (.viaRdIfr 0) (viaBlock { viaResetRecord with ifr := 0x40, ier := 0x20 })) = some 0x40 := by
  decide
theorem test_rd_ifr_enabled :
    byteOf (exec (.viaRdIfr 0) (viaBlock { viaResetRecord with ifr := 0x01, ier := 0x01 })) = some 0x81 := by
  decide
theorem test_rd_ier :
    byteOf (exec (.viaRdIer 0) (viaBlock { viaResetRecord with ier := 0x7F })) = some 0xFF := by
  decide
theorem test_rd_ier_reset : byteOf (exec (.viaRdIer 0) (State.reset)) = some 0x80 := by decide
theorem test_wr_orb : (viaOf (exec (.viaWrOrb 0 0xF5) (State.reset))).map (fun x => x.orb) = some 0xF5 := by decide
theorem test_wr_ora : (viaOf (exec (.viaWrOra 0 0xF5) (State.reset))).map (fun x => x.ora) = some 0xF5 := by decide
theorem test_wr_ddrb : (viaOf (exec (.viaWrDdrb 0 0xF5) (State.reset))).map (fun x => x.ddrb) = some 0xF5 := by decide
theorem test_wr_ddra : (viaOf (exec (.viaWrDdra 0 0xF5) (State.reset))).map (fun x => x.ddra) = some 0xF5 := by decide
theorem test_wr_sr : (viaOf (exec (.viaWrSr 0 0xF5) (State.reset))).map (fun x => x.sr) = some 0xF5 := by decide
theorem test_wr_acr : (viaOf (exec (.viaWrAcr 0 0xF5) (State.reset))).map (fun x => x.acr) = some 0xF5 := by decide
theorem test_wr_pcr : (viaOf (exec (.viaWrPcr 0 0xF5) (State.reset))).map (fun x => x.pcr) = some 0xF5 := by decide
theorem test_wr_orax : (viaOf (exec (.viaWrOrax 0 0x80) (State.reset))).map (fun x => x.ora) = some 0x80 := by decide
theorem test_wr_t1cl :
    (viaOf (exec (.viaWrT1cl 0 0xCD) (viaBlock { viaResetRecord with t1l := 0xAB00, t1c := 0x0005 }))).map (fun x => (x.t1l, x.t1c)) = some (0xABCD, 0x0005) := by
  decide
theorem test_wr_t1ch :
    (viaOf (exec (.viaWrT1ch 0 0x27) (viaBlock { viaResetRecord with t1l := 0x0010, ifr := 0x40, ier := 0x40 }))).map (fun x => (x.t1l, x.t1c, x.ifr)) = some (0x2710, 0x2710, 0) := by
  decide
theorem test_wr_t1ll :
    (viaOf (exec (.viaWrT1ll 0 0x01) (viaBlock { viaResetRecord with t1l := 0xABCD, ifr := 0x40 }))).map (fun x => (x.t1l, x.ifr)) = some (0xAB01, 0x40) := by
  decide
theorem test_wr_t1lh :
    (viaOf (exec (.viaWrT1lh 0 0x00) (viaBlock { viaResetRecord with t1l := 0xAB01, t1c := 0x0003 }))).map (fun x => (x.t1l, x.t1c)) = some (0x0001, 0x0003) := by
  decide
theorem test_wr_t2cl :
    (viaOf (exec (.viaWrT2cl 0 0x64) (viaBlock { viaResetRecord with t2l := 0x0700 }))).map (fun x => (x.t2l, x.t2c)) = some (0x0764, 0) := by
  decide
theorem test_wr_t2ch :
    (viaOf (exec (.viaWrT2ch 0 0x27) (viaBlock { viaResetRecord with t2l := 0x0010, ifr := 0x60 }))).map (fun x => (x.t2l, x.t2c, x.ifr)) = some (0x2710, 0x2710, 0x40) := by
  decide
theorem test_wr_ifr :
    (viaOf (exec (.viaWrIfr 0 0x41) (viaBlock { viaResetRecord with ifr := 0x63, ier := 0x40 }))).map (fun x => x.ifr) = some 0x22 := by
  decide
theorem test_wr_ifr_bit7 :
    (viaOf (exec (.viaWrIfr 0 0x80) (viaBlock { viaResetRecord with ifr := 0x63, ier := 0x40 }))).map (fun x => x.ifr) = some 0x63 := by
  decide
theorem test_wr_ier_set :
    (viaOf (exec (.viaWrIer 0 0xC0) (viaBlock { viaResetRecord with ier := 0x20, ifr := 0x40 }))).map (fun x => x.ier) = some 0x60 := by
  decide
theorem test_wr_ier_clear :
    (viaOf (exec (.viaWrIer 0 0x05) (viaBlock { viaResetRecord with ier := 0x25 }))).map (fun x => x.ier) = some 0x20 := by
  decide
theorem test_step_quirk :
    (viaOf (exec (.viaStep 0) (viaBlock { viaResetRecord with t1c := 0x0100, t1l := 0x0007, t2c := 0x0000, t2l := 0x0009 }))).map (fun x => (x.t1c, x.t2c, x.ifr)) = some (0x00FF, 0x0000, 0) := by
  decide
theorem test_step_wrap :
    ((viaOf (exec (.viaStep 0) (inWrapMode (viaBlock { viaResetRecord with t1c := 0x0000, t1l := 0x0003, t2c := 0x1000, ier := 0x40 })))).map (fun x => (x.t1c, x.t2c, x.ifr)), contribsOf (exec (.viaStep 0) (inWrapMode (viaBlock { viaResetRecord with t1c := 0x0000, t1l := 0x0003, t2c := 0x1000, ier := 0x40 })))) =
      (some (0x0003, 0x0FFF, 0x40), some [true, false, false]) := by
  decide
theorem test_pin_a :
    devOf 0 (exec (.viaPinA 0 0x5C) State.reset) = some (.via { viaResetRecord with paIn := 0x5C, pbIn := 0x00 }) := by
  decide
theorem test_pin_b :
    devOf 0 (exec (.viaPinB 0 0x0F) State.reset) = some (.via { viaResetRecord with paIn := 0x00, pbIn := 0x0F }) := by
  decide

/-! ### ACIA (95_test_vectors.md B5 to B7) -/

/-- The frame and rate a control byte gives, and the ticks a byte then takes. -/
def ticksOf (v : Byte) : Int :=
  ticksPerByte Config.reference
    { aciaResetRecord with baud := baudOf Config.reference v, frame := frameOf Config.reference v }

/-- The table of B5. -/
theorem test_ticks_per_byte :
    [0x00, 0x05, 0x15, 0x25, 0x35, 0x45, 0x55, 0x65, 0x75, 0x85, 0x07, 0x08, 0x28, 0x0C, 0x0D, 0x0E, 0x0F, 0x2F, 0x5E].map ticksOf =
      [33330, 1040, 1040, 1144, 1144, 1144, 728, 1040, 1040, 1040, 260, 200000, 220000, 1, 1, 10, 10, 11, 7] := by
  decide

/-- The clamp of B5. -/
theorem test_ticks_clamped :
    ticksPerByte { Config.reference with clockHz := 2000000000 }
      { aciaResetRecord with baud := 1, frame := ⟨8, 1, false, false⟩ } = 2147483647 := by
  decide

theorem test_rd_data :
    byteOf (exec (.aciaRdData 1) (aciaBlock { aciaResetRecord with status := 0xA3, rxHold := 0x41, command := 0x09 } false)) = some 0x41 := by
  decide
theorem test_rd_data_status :
    ((aciaOf (exec (.aciaRdData 1) (aciaBlock { aciaResetRecord with status := 0xA3, rxHold := 0x41, command := 0x09 } false))).map (fun a => (a.status, a.rxHold)), contribsOf (exec (.aciaRdData 1) (aciaBlock { aciaResetRecord with status := 0xA3, rxHold := 0x41, command := 0x09 } false))) =
      (some (0x02, 0x00), some [false, false, false]) := by
  decide
theorem test_rd_stat : byteOf (exec (.aciaRdStat 1) (State.reset)) = some 0x0E := by decide
theorem test_rd_ctrl :
    byteOf (exec (.aciaRdCtrl 1) (aciaBlock { aciaResetRecord with control := 0x95 } false)) = some 0x95 := by
  decide
theorem test_rd_test :
    byteOf (exec (.aciaRdTest 1) (aciaBlock { aciaResetRecord with test := 0xA5 } false)) = some 0xA5 := by
  decide
theorem test_wr_data_transmit :
    (aciaOf (exec (.aciaWrData 1 0x55) (aciaBlock { aciaResetRecord with command := 0x20, baud := 9600, frame := ⟨8, 1, false, false⟩ } false))).map
      (fun a => (a.txHold, a.status, a.txCount)) = some (0x55, 0x0C, 1040) := by
  decide
theorem test_wr_data_receive :
    (aciaOf (exec (.aciaWrData 1 0x77) (aciaBlock { aciaResetRecord with command := 0x09 } false))).map
      (fun a => (a.rxHold, a.status)) = some (0x77, 0x8F) := by
  decide
theorem test_wr_cmd :
    (aciaOf (exec (.aciaWrCmd 1 0x0C) (State.reset))).map (fun x => (x.command, x.status)) = some (0x0C, 0x8E) := by
  decide
theorem test_wr_ctrl :
    (aciaOf (exec (.aciaWrCtrl 1 0x15) (State.reset))).map (fun x => (x.control, x.baud, x.frame)) = some (0x15, 9600, ⟨7, 1, true, true⟩) := by
  decide
theorem test_wr_test :
    (aciaOf (exec (.aciaWrTest 1 0xA5) (State.reset))).map (fun x => x.test) = some 0xA5 := by
  decide
theorem test_step_delivers :
    ((aciaOf (exec (.aciaStep 1) (aciaBlock { aciaResetRecord with status := 0x0C, txHold := 0x33, txCount := -5, command := 0x24 } true))).map (fun a => (a.status, a.txCount)), eventsOf (exec (.aciaStep 1) (aciaBlock { aciaResetRecord with status := 0x0C, txHold := 0x33, txCount := -5, command := 0x24 } true))) =
      (some (0x8E, -6), some [.tx 1 0x33]) := by
  decide
theorem test_step_counts :
    (aciaOf (exec (.aciaStep 1) (aciaBlock { aciaResetRecord with status := 0x0C, txHold := 0x55, txCount := 2 } true))).map (fun x => (x.status, x.txHold, x.txCount)) = some (0x0C, 0x55, 1) := by
  decide
theorem test_rxb_stores :
    (aciaOf (exec (.aciaRxb 1 0x41) (aciaBlock { aciaResetRecord with command := 0x01 } false))).map (fun x => (x.rxHold, x.status)) = some (0x41, 0x0F) := by
  decide
theorem test_rxb_overrun :
    (aciaOf (exec (.aciaRxb 1 0x42) (aciaBlock { aciaResetRecord with command := 0x01, status := 0x0F, rxHold := 0x41 } false))).map (fun x => (x.rxHold, x.status)) = some (0x41, 0x2F) := by
  decide
theorem test_sink :
    devOf 1 (exec (.aciaSink 1 true) State.reset) = some (.acia { aciaResetRecord with sinkAttached := true }) := by
  decide

/-! ### PIA (95_test_vectors.md B8 and B9) -/

theorem test_rd_pb :
    byteOf (exec (.piaRdPb 2) (piaBlock { piaReset with pb := 0xA5, pa := 0x3C })) = some 0xA5 := by
  decide
theorem test_rd_pa :
    byteOf (exec (.piaRdPa 2) (piaBlock { piaReset with pb := 0xA5, pa := 0x3C })) = some 0x3C := by
  decide
theorem test_rd_crb : byteOf (exec (.piaRdCrb 2) (piaBlock { piaReset with crb := 0xFF })) = some 0x7C := by decide
theorem test_rd_cra :
    byteOf (exec (.piaRdCra 2) (piaBlock { piaReset with cra := 0x10, ca1 := true, irqa := true })) = some 0x91 := by
  decide
theorem test_wr_pb :
    (piaOf (exec (.piaWrPb 2 0x02) (piaBlock { piaReset with crb := 0x02 }))).map (fun x => (x.pb, x.cb2Out)) = some (0x02, true) := by
  decide
theorem test_wr_pa :
    (piaOf (exec (.piaWrPa 2 0xFF) (State.reset))).map (fun x => (x.pa, x.ca2Out)) = some (0xFF, false) := by
  decide
theorem test_wr_crb :
    (piaOf (exec (.piaWrCrb 2 0x32) (piaBlock { piaReset with irqb := true, pb := 0x02 }))).map (fun x => (x.crb, x.ddrb, x.irqb, x.cb2Out)) = some (0x32, 0x02, false, true) := by
  decide
theorem test_wr_cra :
    (piaOf (exec (.piaWrCra 2 0xFF) (piaBlock { piaReset with irqa := true }))).map (fun x => (x.cra, x.ddra, x.irqa)) = some (0xFF, 0x0F, false) := by
  decide
theorem test_line_ca1 :
    (piaOf (exec (.piaLineCa1 2 true) (piaBlock { piaReset with cra := 0x10 }))).map (fun x => (x.ca1, x.irqa, x.irqb)) = some (true, true, false) := by
  decide
theorem test_line_ca2 :
    (piaOf (exec (.piaLineCa2 2 true) (piaBlock { piaReset with cra := 0x22 }))).map (fun x => (x.ca2, x.irqa)) = some (true, false) := by
  decide
theorem test_line_cb1 :
    (piaOf (exec (.piaLineCb1 2 false) (piaBlock { piaReset with crb := 0x10, cb1 := true }))).map (fun x => (x.cb1, x.irqb)) = some (false, true) := by
  decide
theorem test_line_cb2 :
    (piaOf (exec (.piaLineCb2 2 true) (piaBlock { piaReset with crb := 0x30 }))).map (fun x => (x.cb2, x.irqb)) = some (true, true) := by
  decide
theorem test_pia_step : devOf 2 (exec (.piaStep 2) State.reset) = some (.pia piaReset) := by decide

/-! ### Signals, records, the aggregator (95_test_vectors.md B10 to B12) -/

theorem test_sig_reset :
    ((aciaOf (exec (.anySigReset 1) (aciaBlock { aciaResetRecord with status := 0xAF, command := 0x09 } false))),
      contribsOf (exec (.anySigReset 1) (aciaBlock { aciaResetRecord with status := 0xAF, command := 0x09 } false))) =
      (some aciaResetRecord, some [false, false, false]) := by
  decide
theorem test_sig_nmi :
    (eventsOf (exec (.aciaSigNmi 1) State.reset), aciaOf (exec (.aciaSigNmi 1) State.reset)) =
      (some [.nmi 1], some aciaResetRecord) := by
  decide
theorem test_sig_irq :
    (contribsOf (exec (.aciaSigIrq 1) State.reset), aciaOf (exec (.aciaSigIrq 1) State.reset)) =
      (some [false, true, false], some aciaResetRecord) := by
  decide
theorem test_sig_ignored :
    [exec (.viaSigNmi 0) State.reset, exec (.viaSigIrq 0) State.reset, exec (.piaSigNmi 2) State.reset,
      exec (.piaSigIrq 2) State.reset, exec (.anySigOther 1) State.reset].map contribsOf =
      List.replicate 5 (some [false, false, false]) := by
  decide
/-- A state whose record table holds one record of each kind. -/
def withRecords (s : State) : State :=
  { s with records := [.via { viaResetRecord with ifr := 0x40, ier := 0x40 },
      .acia { aciaResetRecord with status := 0x8F }, .pia { piaReset with irqb := true }] }

theorem test_load_via :
    contribsOf (exec (.viaLoad 0 0) (withRecords State.reset)) = some [true, false, false] := by
  decide
theorem test_load_acia :
    (aciaOf (exec (.aciaLoad 1 1) (withRecords State.reset))).map (fun a => a.status) = some 0x0F := by
  decide
theorem test_load_pia :
    contribsOf (exec (.piaLoad 2 2) (withRecords State.reset)) = some [false, false, true] := by
  decide
/-- B1: refused when the record is not an ACIA record. -/
theorem test_load_other_kind :
    exec (.aciaLoad 1 0) (withRecords State.reset) = .refused .recordOfAnotherKind := by
  rfl
theorem test_save :
    exec (.anySave 0) State.reset =
      .next { State.reset with ret := .record (.via viaResetRecord), records := [.via viaResetRecord] } := by
  rfl
/-- B12: clearing one device's contribution does not clear the line another device holds. -/
theorem test_aggregator_votes :
    contribsOf (runOps [.aciaWrCmd 1 0x04, .piaWrCra 2 0x10, .piaLineCa1 2 true, .aciaWrCmd 1 0x00] State.reset) =
      some [false, false, true] := by
  decide

/-! ### The trace and the bus -/

/-- R129: the whole name counts, letter case does not. -/
theorem test_signal_names :
    [['r', 'e', 's', 'e', 't'], ['R', 's', 't'], ['R', 'E', 'S'], ['n', 'm', 'i'], ['I', 'R', 'q'],
      ['R', 'E', 'S', 'E', 'T', ' '], ['R', 'E', 'S', 'E', 'T', 'S'], []].map signalCode =
      [0x0, 0x0, 0x0, 0x1, 0x2, 0xF, 0xF, 0xF] := by
  decide

/-- R127: `TICK 2`, `WR16` and `RD16` on the reference block. -/
theorem test_pseudo_operations :
    traceWords 3 [.tick 2, .wr16 0 0x4 0x2710, .rd16 0 0x8] =
      [0x002000, 0x012000, 0x022000, 0x002000, 0x012000, 0x022000, 0x001410, 0x001527, 0x000800, 0x000900] := by
  decide

/-- R71, R72: address 0x12 is offset 2 of the ACIA; address 0x18 is no device's. -/
theorem test_bus :
    (busReadWord Config.reference 0x12, busWriteWord Config.reference 0x0E 0xC0, busReadWord Config.reference 0x18) =
      (some 0x010200, some 0x001EC0, none) := by
  decide

/-- The host's question: a word placed after reset is run as the first operation. -/
theorem test_step_runs_placed_word :
    (step (State.reset.withFetchWord 16 0x1EC0)) =
      (exec (.viaWrIer 0 0xC0) { State.reset with index := 1 }) := by
  rfl

theorem test_step_refuses : step (State.reset.withFetchWord 16 0xA000) = .refused (.refusedWord .reservedKind) := by
  rfl

theorem test_reference_valid : Config.reference.valid = true := by decide

/-- R7: two windows that share an address make the configuration invalid. -/
theorem test_overlap_invalid :
    ({ Config.reference with devices := [⟨.via, 0x10, 0, 0⟩, ⟨.pia, 0x1F, 0, 0⟩] } : Config).valid = false := by
  decide

/-! ### Witnesses: a state and operands that meet the hypotheses of each obligation -/

/-- The devices of the witnesses: every field at a value of its own. -/
def demoVia : Via :=
  { ora := 0xAA, orb := 0xF0, ddra := 0x0F, ddrb := 0x3C, t1c := 0x0000, t1l := 0x0000, t2c := 0x0002, t2l := 0x0010,
    sr := 0x5A, acr := 0xC3, pcr := 0x0E, ifr := 0x23, ier := 0x40, paIn := 0x5C, pbIn := 0x0F }

def demoAcia (command status : Byte) (count : Int) : Acia :=
  { status := status, command := command, control := 0x05, test := 0xA5, txHold := 0x55, rxHold := 0x41, baud := 9600,
    frame := ⟨8, 1, false, false⟩, txCount := count, sinkAttached := true }

def demoPia : Pia :=
  { pa := 0x02, pb := 0xA5, ddra := 0x02, ddrb := 0x00, cra := 0x32, crb := 0x10, ca1 := true, ca2 := false, cb1 := false,
    cb2 := true, irqa := true, irqb := false, ca2Out := true, cb2Out := false }

def demoViaState : State := blockWith 0 (.via demoVia) true
def demoAciaState (command status : Byte) (count : Int) : State :=
  blockWith 1 (.acia (demoAcia command status count)) true
def demoPiaState : State := blockWith 2 (.pia demoPia) true

/-- The hypothesis of every statement about a VIA operation. -/
abbrev ViaHyp : Prop := demoViaState.slotAt 0 = some ⟨.via demoVia, true⟩

/-- The hypothesis of every statement about an ACIA operation. -/
abbrev AciaHyp (command status : Byte) (count : Int) : Prop :=
  (demoAciaState command status count).slotAt 1 = some ⟨.acia (demoAcia command status count), true⟩

/-- The hypothesis of every statement about a PIA operation. -/
abbrev PiaHyp : Prop := demoPiaState.slotAt 2 = some ⟨.pia demoPia, true⟩

/-- The hypothesis of every statement about decoding at a device of a kind. -/
abbrev KindsHyp : Prop := kinds3[0]? = some .via ∧ kinds3[1]? = some .acia ∧ kinds3[2]? = some .pia

theorem witness_DecodeEncodeAgree : (Instr.piaLineCb2 2 true).WellFormed kinds3 := by decide
theorem witness_DecoderAgreesWithOpcodeTable :
    decode kinds3 0x0004FF = .ok (.viaRdT1cl 0) ∧ (Instr.viaRdT1cl 0).WellFormed kinds3 ∧
      (Instr.viaRdT1cl 0).dev = (unpackWord 0x0004FF).dev ∧ (Instr.viaRdT1cl 0).row.fits 0x0004FF = true := by
  decide

theorem witness_RefusedWordsAreTheReservedOnes :
    (State.reset.withFetchWord 24 0x013300).cfg.valid = true ∧
      (State.reset.withFetchWord 24 0x013300).fetch = some 0x013300 ∧
      decode kinds3 0x013300 = .error .reservedSignal := by
  decide

theorem witness_StepRunsDecodedOperation :
    (State.reset.withFetchWord 24 0x0004FF).cfg.valid = true ∧
      (State.reset.withFetchWord 24 0x0004FF).trace = [0x0004FF] ∧ decode kinds3 0x0004FF = .ok (.viaRdT1cl 0) := by
  decide

theorem witness_StepRefusesInvalidConfiguration :
    (State.powerOn { Config.reference with maxTicks := 0 }).cfg.valid = false := by
  decide

theorem witness_StepIdlesAtEndOfTrace : State.reset.cfg.valid = true ∧ State.reset.trace = [] := by decide
theorem witness_PowerOnState :
    Config.reference.devices.map DeviceConfig.kind = [.via, .acia, .pia] ∧
      Config.reference.devices[2]? = some ⟨.pia, 0x0014, 0x00, 0x00⟩ := by
  decide

theorem witness_ResetSignalRestoresResetValues : KindsHyp ∧ ViaHyp ∧ AciaHyp 0x09 0xAF 7 ∧ PiaHyp := by decide

theorem witness_ResetIsIdempotent :
    exec (.anySigReset 2) demoPiaState = .next (blockWith 2 (.pia piaReset) false) := by
  rfl

theorem witness_ViaPortReadsCombineLatchAndPins : KindsHyp ∧ ViaHyp := by decide
theorem witness_ViaStoredByteReads : KindsHyp ∧ ViaHyp := by decide
theorem witness_ViaInterruptRegisterReads : KindsHyp ∧ ViaHyp := by decide
theorem witness_ViaLowCounterReadsClearTheFlag : KindsHyp ∧ ViaHyp := by decide
theorem witness_ViaPlainWritesStoreTheByte : KindsHyp ∧ ViaHyp := by decide
theorem witness_ViaLatchByteWrites : KindsHyp ∧ ViaHyp := by decide
theorem witness_ViaHighCounterWritesLoadAndClear : KindsHyp ∧ ViaHyp := by decide
theorem witness_ViaIfrWriteClearsTheWrittenFlags : KindsHyp ∧ ViaHyp := by decide
theorem witness_ViaIerWriteSetsOrClearsEnables : KindsHyp ∧ ViaHyp := by decide
theorem witness_ViaPinsAreDrivenFromOutside : KindsHyp ∧ ViaHyp := by decide

theorem witness_ViaStepTicksBothTimers :
    KindsHyp ∧ demoViaState.cfg.timerMode = .quirk ∧ ViaHyp ∧ (inWrapMode demoViaState).cfg.timerMode = .wrap ∧
      (inWrapMode demoViaState).slotAt 0 = some ⟨.via demoVia, true⟩ := by
  decide

theorem witness_ViaCountersReachZeroAndStay : demoViaState.cfg.timerMode = .quirk ∧ ViaHyp := by decide

/-- The boundary latch 0, with both clauses' tick counts: 0 and 1. -/
theorem witness_ViaTimerFiresAfterLatchPlusOneTicks :
    (inWrapMode demoViaState).cfg.timerMode = .wrap ∧
      (inWrapMode demoViaState).slotAt 0 = some ⟨.via demoVia, true⟩ ∧ demoVia.t1c = demoVia.t1l ∧
      demoVia.ifr.getLsbD 6 = false ∧ 0 ≤ demoVia.t1l.toNat := by
  decide

theorem witness_QuirkModeFlagsOnlyLoadsCanSet :
    demoViaState.cfg.timerMode = .quirk ∧ (Instr.viaStep 0).isLoad = false ∧ ViaHyp ∧
      exec (.viaStep 0) demoViaState = .next (blockWith 0 (.via { demoVia with t2c := 0x0001 }) true) ∧
      demoVia.ifr.getLsbD 5 = true :=
  ⟨rfl, rfl, by decide, rfl, by decide⟩

theorem witness_AciaDataReadConsumesThePendingByte :
    KindsHyp ∧ AciaHyp 0x09 0xA3 0 ∧ (0xA3#8).getLsbD 0 = true ∧ AciaHyp 0x09 0x7E 0 ∧ (0x7E#8).getLsbD 0 = false := by
  decide

theorem witness_AciaStoredByteReads : KindsHyp ∧ AciaHyp 0x09 0xA3 0 := by decide
theorem witness_AciaCommandWriteReevaluates : KindsHyp ∧ AciaHyp 0x09 0xA3 0 := by decide
theorem witness_AciaControlWriteDerivesRateAndFrame : KindsHyp ∧ AciaHyp 0x09 0xA3 0 := by decide
theorem witness_AciaTestWriteAndSinkAttachment : KindsHyp ∧ AciaHyp 0x09 0xA3 0 := by decide
theorem witness_AciaSignalsReachTheLines : KindsHyp ∧ AciaHyp 0x09 0xA3 0 := by decide

/-- The three paths: transmit, receive, neither. -/
theorem witness_AciaDataWriteChoosesItsPath :
    KindsHyp ∧ AciaHyp 0x21 0x0E 0 ∧ (0x21#8).getLsbD 5 = true ∧ AciaHyp 0x01 0x0E 0 ∧ (0x01#8).getLsbD 5 = false ∧
      (0x01#8).getLsbD 0 = true ∧ AciaHyp 0xC0 0x0E 0 ∧ (0xC0#8).getLsbD 5 = false ∧ (0xC0#8).getLsbD 0 = false := by
  decide

/-- A rate of 0, the rate 9600 of the reference clock, and the smallest `MAX_TICKS`. -/
theorem witness_TicksPerByteFormulaAndRange :
    (aciaResetRecord.baud ≤ 0) ∧ (0 : Int) < (demoAcia 0 0 0).baud ∧
      (104 : Int) * (demoAcia 0 0 0).baud ≤ (Config.reference.clockHz : Int) ∧
      (Config.reference.clockHz : Int) < (104 + 1) * (demoAcia 0 0 0).baud ∧
      (10 : Int) = 1 + (demoAcia 0 0 0).frame.dataBits + (if (demoAcia 0 0 0).frame.parityEn then 1 else 0) +
        (demoAcia 0 0 0).frame.stopBits ∧
      1 ≤ Config.reference.maxTicks ∧ 1 ≤ ({ Config.reference with maxTicks := 1 } : Config).maxTicks := by
  decide

/-- Nothing pending; two ticks to go; the last tick; a loaded negative countdown. -/
theorem witness_AciaStepCountsDownAndDelivers :
    KindsHyp ∧ AciaHyp 0x24 0x0E 0 ∧ (0x0E#8).getLsbD 1 = true ∧ AciaHyp 0x24 0x0C 2 ∧ (0x0C#8).getLsbD 1 = false ∧
      (0 : Int) < 2 - 1 ∧ AciaHyp 0x24 0x0C 1 ∧ (1 : Int) - 1 ≤ 0 ∧ AciaHyp 0x24 0x0C (-5) ∧ (-5 : Int) - 1 ≤ 0 := by
  decide

/-- Receiver off; overrun; stored. -/
theorem witness_AciaDeliveryStoresOrOverruns :
    KindsHyp ∧ AciaHyp 0x00 0x0E 0 ∧ (0x00#8).getLsbD 0 = false ∧ AciaHyp 0x01 0x0F 0 ∧ (0x01#8).getLsbD 0 = true ∧
      (0x0F#8).getLsbD 0 = true ∧ AciaHyp 0x01 0x0E 0 ∧ (0x0E#8).getLsbD 0 = false := by
  decide

/-- 1040 ticks are still to run: neither clause is about an empty range. -/
theorem witness_AciaByteDeliveredOnTheLastTick :
    1 ≤ (demoAciaState 0x20 0x0E 0).cfg.maxTicks ∧ AciaHyp 0x20 0x0E 0 ∧ (0x20#8).getLsbD 5 = true ∧
      ((1039 : Nat) : Int) < ticksPerByte Config.reference (demoAcia 0x20 0x0E 0).toAciaRecord := by
  decide

theorem witness_PiaPortsAndHandshake : KindsHyp ∧ PiaHyp := by decide
theorem witness_PiaControlReadsMirrorFlagAndLines : KindsHyp ∧ PiaHyp := by decide
theorem witness_PiaControlWritesClearTheirFlag : KindsHyp ∧ PiaHyp := by decide
theorem witness_PiaStepChangesNothing : KindsHyp ∧ PiaHyp := by decide
theorem witness_PiaLineChangesSetEnabledFlags :
    KindsHyp ∧ PiaHyp ∧ true = (demoPia.irqa || demoPia.cra.getLsbD 4) := by
  decide
theorem witness_IgnoredSignalsChangeNothing : KindsHyp ∧ ViaHyp ∧ AciaHyp 0x09 0xA3 0 ∧ PiaHyp := by decide
theorem witness_SaveReturnsTheRecord : KindsHyp ∧ ViaHyp ∧ AciaHyp 0x09 0xA3 0 ∧ PiaHyp := by decide

/-- A table with the record asked for, the index just past it, and a record of another kind. -/
theorem witness_RecordTableOfSavesAndLoads :
    ViaHyp ∧ (withRecords demoViaState).records[(0 : Byte).toNat]? =
        some (.via { viaResetRecord with ifr := 0x40, ier := 0x40 }) ∧
      (withRecords demoViaState).records[(3 : Byte).toNat]? = none ∧ Record.kind (.pia piaReset) ≠ .via := by
  decide

theorem witness_LoadsRestoreAndReevaluate :
    KindsHyp ∧ (withRecords demoViaState).slotAt 0 = some ⟨.via demoVia, true⟩ ∧
      (withRecords demoViaState).records[(1 : Byte).toNat]? = some (.acia { aciaResetRecord with status := 0x8F }) ∧
      (withRecords demoViaState).records[(2 : Byte).toNat]? = some (.pia { piaReset with irqb := true }) := by
  decide

/-- On the reference block every contribution is its device's want and the ACIA's status IRQ bit mirrors it. -/
theorem agrees_reset : ∀ slot ∈ State.reset.slots, slot.contrib = slot.dev.want ∧ slot.dev.MirrorsWant := by
  intro slot h
  simp only [State.reset, State.powerOn, Config.reference, List.map_cons, List.map_nil, devicePowerOn, List.mem_cons,
    List.not_mem_nil, or_false] at h
  rcases h with rfl | rfl | rfl
  · exact ⟨by decide, trivial⟩
  · exact ⟨by decide, by simp only [Device.MirrorsWant]; decide⟩
  · exact ⟨by decide, trivial⟩

/-- So it is honest. -/
theorem honest_reset : State.reset.Honest := fun slot h => ⟨.inl (agrees_reset slot h).1, (agrees_reset slot h).2⟩

/-- A save with room for exactly one more addressable record, on a block that is honest. -/
theorem witness_SaveThenLoadRoundTrip :
    ({ State.reset with records := List.replicate 255 (.via viaResetRecord) } : State).Honest ∧
      (List.replicate 255 (Record.via viaResetRecord)).length < 256 ∧
      ∃ slot, State.reset.slotAt 1 = some slot :=
  ⟨honest_reset, by rw [List.length_replicate]; decide, _, rfl⟩

theorem witness_IrqLineIsTheOrOfContributions : demoPiaState.irqLine = true ∧ State.reset.irqLine = false := by decide

theorem witness_EveryStepKeepsConfigurationAndShape :
    (State.reset.withFetchWord 24 0x001EC0).Shaped ∧
      (devOf 0 (step (State.reset.withFetchWord 24 0x001EC0))).isSome = true :=
  ⟨by unfold State.Shaped; decide, by decide⟩

/-- An operation other than `SIG IRQ` that completes on an honest block, and `SIG IRQ` itself. -/
theorem witness_EveryStepKeepsContributionsHonest :
    (State.reset.withFetchWord 24 0x013200).Honest ∧
      contribsOf (step (State.reset.withFetchWord 24 0x013200)) = some [false, true, false] ∧
      (∀ slot ∈ State.reset.slots, slot.contrib = slot.dev.want ∧ slot.dev.MirrorsWant) ∧
      (∀ d, Instr.aciaWrCmd 1 0x04 ≠ .aciaSigIrq d) ∧
      contribsOf (exec (.aciaWrCmd 1 0x04) State.reset) = some [false, true, false] :=
  ⟨honest_reset, by decide, agrees_reset, fun _ h => Instr.noConfusion h, by decide⟩

/-- The reference block is settled. -/
theorem settled_reset : State.reset.Settled := by
  intro slot h
  simp only [State.reset, State.powerOn, Config.reference, List.map_cons, List.map_nil, devicePowerOn, List.mem_cons,
    List.not_mem_nil, or_false] at h
  rcases h with rfl | rfl | rfl
  · trivial
  · simp only [Device.Settled, AciaRecord.Settled]; decide
  · simp only [Device.Settled, Pia.Settled]; decide

theorem witness_OnlyLoadsCanUnsettleADevice :
    1 ≤ State.reset.cfg.maxTicks ∧ State.reset.Settled ∧ (Instr.aciaWrData 1 0x55).isLoad = false ∧
      (devOf 1 (exec (.aciaWrData 1 0x55) State.reset)).isSome = true :=
  ⟨by decide, settled_reset, by decide, by decide⟩

theorem witness_ReachableStatesKeepTheInvariants :
    Reachable Config.reference State.reset ∧
      Reachable Config.reference { State.reset with ret := .byte 0x80 } :=
  ⟨.start, .operation (.viaRdIer 0) _ _ .start rfl⟩

theorem witness_OtherDevicesAreUntouched :
    exec (.viaRdIer 0) State.reset = .next { State.reset with ret := .byte 0x80 } ∧
      (1 : DevId) ≠ (Instr.viaRdIer 0).dev :=
  ⟨rfl, by decide⟩

/-- An operation that needs no record, and a load with its record. -/
theorem witness_EveryDecodedOperationCompletes :
    (withRecords State.reset).Shaped ∧ (Instr.aciaLoad 1 1).WellFormed (withRecords State.reset).cfg.kinds ∧
      Statements.RecordReady (withRecords State.reset) (.aciaLoad 1 1) ∧
      ((withRecords State.reset).withFetchWord 24 0x018001).fetch = some 0x018001 ∧
      decode (withRecords State.reset).cfg.kinds 0x018001 = .ok (.aciaLoad 1 1) :=
  ⟨by unfold State.Shaped; decide, by decide, ⟨_, rfl⟩, by decide, by decide⟩

theorem witness_AggregatorWrittenOnlyAtReevaluationPoints :
    ¬ Statements.MayWriteAggregator (.viaRdIer 0) ∧
      exec (.viaRdIer 0) State.reset = .next { State.reset with ret := .byte 0x80 } ∧
      State.reset.cfg.timerMode = .quirk ∧ (devOf 0 (exec (.viaStep 0) State.reset)).isSome = true :=
  ⟨fun h => h, rfl, rfl, by decide⟩

theorem witness_OnlyThreeReadsHaveSideEffects :
    (Instr.piaRdCra 2).isRegisterRead = true ∧
      exec (.piaRdCra 2) State.reset = .next { State.reset with ret := .byte 0x00 } ∧
      (devOf 1 (exec (.aciaRdData 1) (demoAciaState 0x09 0xA3 0))).isSome = true :=
  ⟨by decide, rfl, by decide⟩

theorem witness_EventsComeOnlyFromTicksAndNmi :
    eventsOf (exec (.aciaStep 1) (demoAciaState 0x24 0x0C 1)) = some [.tx 1 0x55] ∧
      eventsOf (exec (.aciaSigNmi 1) State.reset) = some [.nmi 1] := by
  decide

theorem witness_TicksOfDifferentDevicesCommute :
    Statements.IsTick (.viaStep 0) ∧ Statements.IsTick (.aciaStep 1) ∧
      (Instr.viaStep 0).dev ≠ (Instr.aciaStep 1).dev ∧
      eventsOf (runOps [.viaStep 0, .aciaStep 1] (demoAciaState 0x24 0x0C 1)) = some [.tx 1 0x55] :=
  ⟨trivial, trivial, by decide, by decide⟩

/-- The first and the last address of the ACIA's window, and the first address past the last window. -/
theorem witness_BusAccessReachesTheWindowsDevice :
    Config.reference.valid = true ∧ Config.reference.devices[(1 : DevId).toNat]? = some ⟨.acia, 0x0010, 0x00, 0x00⟩ ∧
      0x0010 ≤ 0x0010 ∧ 0x0013 < 0x0010 + Kind.acia.window ∧
      ∀ dc ∈ Config.reference.devices, 0x0018 < dc.base ∨ dc.base + dc.kind.window ≤ 0x0018 := by
  decide

theorem witness_TickStepsEveryDeviceInOrder :
    Config.reference.valid = true ∧ Config.reference.kinds[(2 : DevId).toNat]? = some .pia := by
  decide

end Sys2Proof.Tests
end

section
/-! The branches of `step` that perform no operation: an invalid configuration (R7) and an exhausted trace (R18). -/

namespace Sys2Proof.Machine

variable {s : State}

/-- The host has an operation left to issue exactly when its trace is not empty. -/
@[simp] theorem fetch_eq_none_iff : s.fetch = none ↔ s.trace = [] :=
  List.head?_eq_none_iff

theorem step_of_cfg_invalid (hv : s.cfg.valid = false) : step s = .refused .invalidConfig := by
  have hbranch : ¬ s.cfg.valid = true := by simp [hv]
  exact if_neg hbranch

theorem step_of_fetch_none (hv : s.cfg.valid = true) (hf : s.fetch = none) : step s = .next s := by
  rw [step, if_pos hv, hf]

/-- Settles O6, by the branch of `step` that the failed check of the configuration takes. -/
theorem stepRefusesInvalidConfiguration : Obligations.StepRefusesInvalidConfiguration := by
  intro s hv
  exact step_of_cfg_invalid hv

/-- Settles O7: an empty trace has no operation to fetch, and a step that fetches none answers its own state. -/
theorem stepIdlesAtEndOfTrace : Obligations.StepIdlesAtEndOfTrace := by
  intro s hv htrace
  have hf : s.fetch = none := fetch_eq_none_iff.mpr htrace
  exact step_of_fetch_none hv hf

end Sys2Proof.Machine
end

section
/-! The invariants R50 and R59 (spec 10_state.md sections 6 and 7): which updates of a device keep them, and so
every operation but a load. -/

namespace Sys2Proof.Machine

/-! ### The ACIA (R50) -/

section
variable {cfg : Config} {a : Acia}

/-- The clauses of R50 read the status bits `TDRE` and `RDRF`, the holding bytes and the countdown, nothing else. -/
theorem AciaRecord.settled_iff {r : AciaRecord} :
    r.Settled ↔ (r.status.getLsbD 1 = true → r.txHold = 0) ∧ (r.status.getLsbD 0 = false → r.rxHold = 0) ∧
      0 ≤ r.txCount ∧ (r.status.getLsbD 1 = false → 1 ≤ r.txCount) :=
  Iff.rfl

/-- Writing a status bit other than `RDRF` and `TDRE` keeps R50. -/
theorem settled_writeStatusBit {r : AciaRecord} (i : Nat) (b : Bool) (h0 : i ≠ 0) (h1 : i ≠ 1) (ha : r.Settled) :
    ({ r with status := writeBit r.status i b } : AciaRecord).Settled := by
  simpa only [AciaRecord.settled_iff, getLsbD_writeBit, h0, h1, false_and, if_false] using ha

/-- Re-evaluation writes the status bit `IRQ` only. -/
theorem settled_aciaMirrorIrq (ha : a.Settled) : (aciaMirrorIrq a).Settled :=
  settled_writeStatusBit bitIRQ a.want (by decide) (by decide) ha

theorem settled_aciaLoadReceive (v : Byte) (ha : a.Settled) : (aciaLoadReceive a v).Settled := by
  obtain ⟨htx, -, hcount, hpending⟩ := ha
  have hrdrf : (aciaLoadReceive a v).rdrf = true := by simp [aciaLoadReceive, AciaRecord.rdrf, bitRDRF]
  have htdre : (aciaLoadReceive a v).tdre = a.tdre := by
    simp [aciaLoadReceive, AciaRecord.tdre, bitRDRF, bitTDRE]
  refine ⟨fun h => htx (htdre ▸ h), fun h => ?_, hcount, fun h => hpending (htdre ▸ h)⟩
  simp [hrdrf] at h

/-- The countdown of a transmit byte starts at 1 or more, since `MAX_TICKS` is positive (R203). -/
theorem one_le_ticksPerByte (hmax : 1 ≤ cfg.maxTicks) (r : AciaRecord) : 1 ≤ ticksPerByte cfg r := by
  unfold ticksPerByte
  split
  · exact le_rfl
  · have hone : (1 : Int) * 1 ≤ max 1 ((cfg.clockHz : Int) / r.baud) * max 1 (framedBits r.frame : Int) :=
      mul_le_mul (le_max_left _ _) (le_max_left _ _) zero_le_one (zero_le_one.trans (le_max_left _ _))
    exact le_min (by exact_mod_cast hmax) hone

theorem settled_aciaLoadTransmit (hmax : 1 ≤ cfg.maxTicks) (v : Byte) (ha : a.Settled) :
    (aciaLoadTransmit cfg a v).Settled := by
  obtain ⟨-, hrx, -, -⟩ := ha
  have hcount : 1 ≤ (aciaLoadTransmit cfg a v).txCount := one_le_ticksPerByte hmax a.toAciaRecord
  have htdre : (aciaLoadTransmit cfg a v).tdre = false := by simp [aciaLoadTransmit, AciaRecord.tdre, bitTDRE]
  have hrdrf : (aciaLoadTransmit cfg a v).rdrf = a.rdrf := by
    simp [aciaLoadTransmit, AciaRecord.rdrf, bitTDRE, bitRDRF]
  refine ⟨fun h => ?_, fun h => hrx (hrdrf ▸ h), zero_le_one.trans hcount, fun _ => hcount⟩
  simp [htdre] at h

/-- A data read that found a byte empties the receive holding byte with `RDRF` (R204). -/
theorem settled_dataRead (ha : a.Settled) :
    ({ a with status := statusAfterDataRead a.status, rxHold := 0x00 } : Acia).Settled := by
  obtain ⟨htx, -, hcount, hpending⟩ := ha
  have htdre : (statusAfterDataRead a.status).getLsbD bitTDRE = a.tdre := by
    simp [statusAfterDataRead, AciaRecord.tdre, bitRDRF, bitPE, bitFE, bitOVRN, bitTDRE]
  exact ⟨fun h => htx (htdre.symm.trans h), fun _ => rfl, hcount, fun h => hpending (htdre.symm.trans h)⟩

/-- A delivering tick ends a countdown at 0 exactly, because a pending byte had at least 1 left (R213). -/
theorem settled_aciaDelivered (ha : a.Settled) (hpend : a.tdre = false) : (aciaDelivered a).Settled := by
  obtain ⟨-, hrx, -, hpending⟩ := ha
  have hcount : 0 ≤ a.txCount - 1 := Int.sub_nonneg_of_le (hpending hpend)
  have htdre : (aciaDelivered a).tdre = true := by simp [aciaDelivered, AciaRecord.tdre, bitTDRE]
  have hrdrf : (aciaDelivered a).rdrf = a.rdrf := by simp [aciaDelivered, AciaRecord.rdrf, bitTDRE, bitRDRF]
  refine ⟨fun _ => rfl, fun h => hrx (hrdrf ▸ h), hcount, fun h => ?_⟩
  simp [htdre] at h

/-- A tick that does not deliver leaves a countdown of 1 or more. -/
theorem settled_countdown (ha : a.Settled) (hlow : ¬ a.txCount - 1 ≤ 0) :
    ({ a with txCount := a.txCount - 1 } : Acia).Settled := by
  obtain ⟨htx, hrx, -, -⟩ := ha
  have hcount : 1 ≤ a.txCount - 1 := by omega
  exact ⟨htx, hrx, zero_le_one.trans hcount, fun _ => hcount⟩

end

/-! ### The PIA (R59) -/

section
variable {p : Pia}

theorem settled_piaWrPa (v : Byte) (hp : p.Settled) :
    ({ p with pa := v, ca2Out := handshake p.cra v } : Pia).Settled := by
  obtain ⟨hddra, hddrb, -, hcb2⟩ := hp
  exact ⟨hddra, hddrb, rfl, hcb2⟩

theorem settled_piaWrPb (v : Byte) (hp : p.Settled) :
    ({ p with pb := v, cb2Out := handshake p.crb v } : Pia).Settled := by
  obtain ⟨hddra, hddrb, hca2, -⟩ := hp
  exact ⟨hddra, hddrb, hca2, rfl⟩

theorem settled_piaWrCra (v : Byte) (hp : p.Settled) :
    ({ p with cra := v, ddra := directionOf v, irqa := false, ca2Out := handshake v p.pa } : Pia).Settled := by
  obtain ⟨-, hddrb, -, hcb2⟩ := hp
  exact ⟨directionOf_eq v, hddrb, rfl, hcb2⟩

theorem settled_piaWrCrb (v : Byte) (hp : p.Settled) :
    ({ p with crb := v, ddrb := directionOf v, irqb := false, cb2Out := handshake v p.pb } : Pia).Settled := by
  obtain ⟨hddra, -, hca2, -⟩ := hp
  exact ⟨hddra, directionOf_eq v, hca2, rfl⟩

end

/-- The reset values of every kind meet R50 and R59 (R371). -/
theorem settled_deviceReset (dev : Device) : dev.reset.Settled := by
  cases dev with
  | via v => trivial
  | acia a =>
    have hidle : aciaResetRecord.tdre = true := by decide
    exact ⟨fun _ => rfl, fun _ => rfl, le_rfl, fun h => Bool.noConfusion (hidle.symm.trans h)⟩
  | pia p => exact ⟨rfl, rfl, rfl, rfl⟩

/-! ### The block -/

section
variable {s t : State} {d : DevId}

/-- Writing one slot with a settled device keeps the block settled. -/
theorem settled_of_slots_eq_set {new : Slot} {n : Nat} (hs : s.Settled) (hnew : new.dev.Settled)
    (ht : t.slots = s.slots.set n new) : t.Settled := by
  intro slot hmem
  rw [ht] at hmem
  obtain hold | rfl := List.mem_or_eq_of_mem_set hmem
  · exact hs slot hold
  · exact hnew

/-- The VIA has no relation to keep. -/
theorem onVia_settled {f : Via → Bool → Effect Via} (hs : s.Settled) (h : onVia d s f = .next t) : t.Settled := by
  obtain ⟨v, c, -, rfl⟩ := onVia_next h
  exact settled_of_slots_eq_set (new := ⟨.via (f v c).dev, _⟩) hs trivial rfl

/-- An operation of the ACIA keeps the block settled if it keeps the ACIA so. -/
theorem onAcia_settled {f : Acia → Bool → Effect Acia} (hs : s.Settled) (h : onAcia d s f = .next t)
    (hf : ∀ a c, a.Settled → (f a c).dev.Settled) : t.Settled := by
  obtain ⟨a, c, hat, rfl⟩ := onAcia_next h
  have ha : a.Settled := hs _ (mem_of_slotAt hat)
  exact settled_of_slots_eq_set (new := ⟨.acia (f a c).dev, _⟩) hs (hf a c ha) rfl

/-- An operation of the PIA keeps the block settled if it keeps the PIA so. -/
theorem onPia_settled {f : Pia → Bool → Effect Pia} (hs : s.Settled) (h : onPia d s f = .next t)
    (hf : ∀ p c, p.Settled → (f p c).dev.Settled) : t.Settled := by
  obtain ⟨p, c, hat, rfl⟩ := onPia_next h
  have hp : p.Settled := hs _ (mem_of_slotAt hat)
  exact settled_of_slots_eq_set (new := ⟨.pia (f p c).dev, _⟩) hs (hf p c hp) rfl

theorem execAciaRdData_settled (hs : s.Settled) (h : execAciaRdData d s = .next t) : t.Settled := by
  refine onAcia_settled hs h fun a c ha => ?_
  split
  · exact settled_aciaMirrorIrq (settled_dataRead ha)
  · exact ha

theorem execAciaWrData_settled {v : Byte} (hmax : 1 ≤ s.cfg.maxTicks) (hs : s.Settled)
    (h : execAciaWrData d v s = .next t) : t.Settled := by
  refine onAcia_settled hs h fun a c ha => ?_
  split
  · exact settled_aciaMirrorIrq (settled_aciaLoadTransmit hmax v ha)
  · split
    · exact settled_aciaMirrorIrq (settled_aciaLoadReceive v ha)
    · exact ha

theorem execAciaStep_settled (hs : s.Settled) (h : execAciaStep d s = .next t) : t.Settled := by
  refine onAcia_settled hs h fun a c ha => ?_
  split
  · exact ha
  · rename_i hpend
    split
    · exact settled_aciaMirrorIrq (settled_aciaDelivered ha (Bool.eq_false_of_not_eq_true hpend))
    · rename_i hlow
      exact settled_countdown ha hlow

theorem execAciaRxb_settled {b : Byte} (hs : s.Settled) (h : execAciaRxb d b s = .next t) : t.Settled := by
  refine onAcia_settled hs h fun a c ha => ?_
  split
  · exact ha
  · split
    · exact settled_writeStatusBit bitOVRN true (by decide) (by decide) ha
    · exact settled_aciaMirrorIrq (settled_aciaLoadReceive b ha)

/-- A change of a PIA line, acted on or not, touches only levels and flags, which R59's clauses do not read. -/
theorem onPia_line_settled {same : Pia → Prop} [∀ p, Decidable (same p)] {g : Pia → Pia} (hs : s.Settled)
    (h : onPia d s (fun p c => if same p then .silent p c else piaReeval (g p)) = .next t)
    (hg : ∀ p, p.Settled → (g p).Settled) : t.Settled := by
  refine onPia_settled hs h fun p c hp => ?_
  split
  · exact hp
  · exact hg p hp

/-- Every operation but a load keeps the relations of R50 and R59. -/
theorem exec_settled {i : Instr} (hmax : 1 ≤ s.cfg.maxTicks) (hs : s.Settled) (hload : i.isLoad = false)
    (h : exec i s = .next t) : t.Settled := by
  cases i
  case viaLoad | aciaLoad | piaLoad => cases hload
  case anySigReset d =>
    obtain ⟨slot, -, rfl⟩ := onAny_next h
    exact settled_of_slots_eq_set hs (settled_deviceReset slot.dev) rfl
  case anySigOther d | anySave d =>
    obtain ⟨slot, hat, rfl⟩ := onAny_next h
    exact settled_of_slots_eq_set hs (hs slot (mem_of_slotAt hat)) rfl
  case aciaRdData => exact execAciaRdData_settled hs h
  case aciaWrData => exact execAciaWrData_settled hmax hs h
  case aciaWrCmd => exact onAcia_settled hs h fun _ _ ha => settled_aciaMirrorIrq ha
  case aciaStep => exact execAciaStep_settled hs h
  case aciaRxb => exact execAciaRxb_settled hs h
  case aciaRdStat | aciaRdCtrl | aciaRdTest | aciaWrCtrl | aciaWrTest | aciaSigNmi | aciaSigIrq | aciaSink =>
    exact onAcia_settled hs h fun _ _ ha => ha
  case piaWrPb d v => exact onPia_settled hs h fun _ _ hp => settled_piaWrPb v hp
  case piaWrPa d v => exact onPia_settled hs h fun _ _ hp => settled_piaWrPa v hp
  case piaWrCrb d v => exact onPia_settled hs h fun _ _ hp => settled_piaWrCrb v hp
  case piaWrCra d v => exact onPia_settled hs h fun _ _ hp => settled_piaWrCra v hp
  case piaLineCa1 | piaLineCa2 | piaLineCb1 | piaLineCb2 => exact onPia_line_settled hs h fun _ hp => hp
  case piaRdPb | piaRdPa | piaRdCrb | piaRdCra | piaStep | piaSigNmi | piaSigIrq =>
    exact onPia_settled hs h fun _ _ hp => hp
  all_goals exact onVia_settled hs h

end

/-- Settles O49, by the update each operation makes to its device. -/
theorem onlyLoadsCanUnsettleADevice : Obligations.OnlyLoadsCanUnsettleADevice := by
  intro i s t hmax hs hload h
  exact exec_settled hmax hs hload h

end Sys2Proof.Machine
end

section
/-! The frame of an operation (spec 10_state.md R26): what a write of its own device's slot leaves of the block. -/

namespace Sys2Proof.Machine

variable {s t : State} {d e : DevId}

theorem TouchesOwnSlot.slotAt_other (h : TouchesOwnSlot d s t) (he : e ≠ d) : t.slotAt e = s.slotAt e := by
  obtain ⟨-, new, -, -, hslots⟩ := h.slot
  have hcommit : t.slotAt e = (s.commit d new .nothing []).slotAt e := by
    rw [State.slotAt, State.slotAt, hslots, commit_slots]
  exact hcommit.trans (slotAt_commit_other s d e new .nothing [] he)

theorem TouchesOwnSlot.length_slots (h : TouchesOwnSlot d s t) : t.slots.length = s.slots.length := by
  obtain ⟨-, new, -, -, hslots⟩ := h.slot
  rw [hslots, List.length_set]

/-- Settles O52, from what performing any operation can do to the state. -/
theorem otherDevicesAreUntouched : Obligations.OtherDevicesAreUntouched := by
  intro i s t h
  have htouch : TouchesOwnSlot i.dev s t := exec_touchesOwnSlot h
  exact ⟨fun _ he => htouch.slotAt_other he, htouch.length_slots, htouch.cfg, htouch.trace, htouch.index⟩

end Sys2Proof.Machine
end

section
/-! Register reads (spec 20_memory.md R76): a read that only answers leaves the block as it is, and an ACIA data read
leaves no receive byte pending. -/

namespace Sys2Proof.Machine

variable {s t : State} {d : DevId}

/-! ### Reads that only answer -/

/-- Writing a slot back and returning a byte changes nothing but what was returned. -/
theorem commit_same_byte {slot : Slot} {b : Byte} (hat : s.slotAt d = some slot) :
    s.commit d slot (.byte b) [] = { s with ret := .byte b } := by
  rw [commit_same s d slot _ _ hat, List.append_nil]

theorem onVia_answer_next {value : Via → Byte} (h : onVia d s (fun v c => .answer v c (value v)) = .next t) :
    ∃ b : Byte, t = { s with ret := .byte b } := by
  obtain ⟨v, c, hat, rfl⟩ := onVia_next h
  exact ⟨value v, commit_same_byte hat⟩

theorem onAcia_answer_next {value : Acia → Byte}
    (h : onAcia d s (fun a c => .answer a c (value a)) = .next t) : ∃ b : Byte, t = { s with ret := .byte b } := by
  obtain ⟨a, c, hat, rfl⟩ := onAcia_next h
  exact ⟨value a, commit_same_byte hat⟩

theorem onPia_answer_next {value : Pia → Byte} (h : onPia d s (fun p c => .answer p c (value p)) = .next t) :
    ∃ b : Byte, t = { s with ret := .byte b } := by
  obtain ⟨p, c, hat, rfl⟩ := onPia_next h
  exact ⟨value p, commit_same_byte hat⟩

/-- With R76's three exceptions excluded, every register read only answers; the other operations are no register
reads, as their rows carry another kind code. -/
theorem exec_plainRead_next {i : Instr} (hread : i.isRegisterRead = true) (h : exec i s = .next t)
    (ht1cl : ∀ d, i ≠ .viaRdT1cl d) (ht2cl : ∀ d, i ≠ .viaRdT2cl d) (hdata : ∀ d, i ≠ .aciaRdData d) :
    ∃ b : Byte, t = { s with ret := .byte b } := by
  cases i
  case viaRdT1cl d => exact absurd rfl (ht1cl d)
  case viaRdT2cl d => exact absurd rfl (ht2cl d)
  case aciaRdData d => exact absurd rfl (hdata d)
  case viaRdOrb | viaRdOra | viaRdDdrb | viaRdDdra | viaRdT1ch | viaRdT1ll | viaRdT1lh | viaRdT2ch | viaRdSr |
      viaRdAcr | viaRdPcr | viaRdIfr | viaRdIer | viaRdOrax => exact onVia_answer_next h
  case aciaRdStat | aciaRdCtrl | aciaRdTest => exact onAcia_answer_next h
  case piaRdPb | piaRdPa | piaRdCrb | piaRdCra => exact onPia_answer_next h
  all_goals simp [Instr.isRegisterRead, Instr.row, OpKind.code] at hread

/-! ### The ACIA data read -/

/-- With no receive byte pending a data read returns 0 and changes nothing (R204). -/
theorem execAciaRdData_of_rdrf_eq_false {a : Acia} {c : Bool} (hat : s.slotAt d = some ⟨.acia a, c⟩)
    (hempty : a.rdrf = false) : execAciaRdData d s = .next { s with ret := .byte 0 } := by
  simp only [execAciaRdData, onAcia_eq hat, hempty, Bool.false_eq_true, if_false]
  exact congrArg Host.Outcome.next (commit_same_byte hat)

theorem rdrf_statusAfterDataRead (st : Byte) : (statusAfterDataRead st).getLsbD bitRDRF = false := by
  simp [statusAfterDataRead, bitRDRF, bitPE, bitFE, bitOVRN]

/-- Whether it found a byte or not, a data read leaves none pending (R204). -/
theorem execAciaRdData_leaves_none_pending (h : execAciaRdData d s = .next t) :
    ∃ a c, t.slotAt d = some ⟨.acia a, c⟩ ∧ a.rdrf = false := by
  obtain ⟨a, c, hat, rfl⟩ := onAcia_next h
  refine ⟨_, _, slotAt_commit_self s d _ _ _ hat, ?_⟩
  split
  · exact (rdrf_aciaMirrorIrq _).trans (rdrf_statusAfterDataRead a.status)
  · rename_i hempty
    exact Bool.eq_false_of_not_eq_true hempty

/-- Settles O55, from what a read that only answers does and from the state a data read leaves. -/
theorem onlyThreeReadsHaveSideEffects : Obligations.OnlyThreeReadsHaveSideEffects := by
  refine ⟨fun i s t => exec_plainRead_next, fun s t d h => ?_⟩
  obtain ⟨a, c, hat, hempty⟩ := execAciaRdData_leaves_none_pending h
  exact execAciaRdData_of_rdrf_eq_false hat hempty

end Sys2Proof.Machine
end

section
/-! The bus dispatch (spec 20_memory.md R71, R72): the windows of a valid configuration share no address, so an
address in a window reaches that window's device. -/

namespace Sys2Proof

/-- The check of the windows compares every two devices of the list (R7). -/
theorem windowsDisjoint_iff_pairwise (l : List DeviceConfig) :
    windowsDisjoint l = true ↔ l.Pairwise (fun a b => a.disjoint b = true) := by
  induction l with
  | nil => simp [windowsDisjoint]
  | cons a rest ih => simp [windowsDisjoint, ih]

theorem Config.windowsDisjoint_of_valid {c : Config} (hv : c.valid = true) : windowsDisjoint c.devices = true := by
  simp only [Config.valid, Bool.and_eq_true] at hv
  obtain ⟨⟨⟨-, hdisj⟩, -⟩, -⟩ := hv
  exact hdisj

/-- The kind list has the kind of every device of the configuration. -/
theorem Config.kinds_getElem?_of_devices {c : Config} {n : Nat} {dc : DeviceConfig} (h : c.devices[n]? = some dc) :
    c.kinds[n]? = some dc.kind := by
  simp [Config.kinds, h]

end Sys2Proof

namespace Sys2Proof.Machine

variable {c : Config} {addr n : Nat} {dc : DeviceConfig}

@[simp] theorem windowHolds_iff : windowHolds dc addr = true ↔ dc.base ≤ addr ∧ addr < dc.base + dc.kind.window := by
  simp [windowHolds]

/-- Disjoint windows hold no address both. -/
theorem windowHolds_eq_false_of_disjoint {a b : DeviceConfig} (hdisj : a.disjoint b = true)
    (hb : windowHolds b addr = true) : windowHolds a addr = false := by
  rw [windowHolds_iff] at hb
  rw [DeviceConfig.disjoint, decide_eq_true_iff] at hdisj
  rw [← Bool.not_eq_true, windowHolds_iff]
  omega

/-- The offset a device sees is the address modulo the size of its window (R72). -/
theorem windowOffset_eq_mod (k : Kind) (addr : Nat) : windowOffset k addr = BitVec.ofNat 4 (addr % k.window) := by
  have hmask : addr &&& (k.window - 1) = addr % k.window := by
    cases k with
    | via => exact Nat.and_two_pow_sub_one_eq_mod addr 4
    | acia | pia => exact Nat.and_two_pow_sub_one_eq_mod addr 2
  rw [windowOffset, hmask]

/-- In a valid configuration the device found is the one whose window holds the address: no earlier window does. -/
theorem deviceAtAddress_eq_some (hv : c.valid = true) (hdc : c.devices[n]? = some dc)
    (hin : windowHolds dc addr = true) : deviceAtAddress c addr = some n := by
  obtain ⟨hlt, hget⟩ := List.getElem?_eq_some_iff.mp hdc
  have hpair := (windowsDisjoint_iff_pairwise c.devices).mp (Config.windowsDisjoint_of_valid hv)
  refine List.findIdx?_eq_some_iff_getElem.mpr ⟨hlt, hget ▸ hin, fun j hj => ?_⟩
  have hdisj : (c.devices[j]).disjoint dc = true := hget ▸ List.pairwise_iff_getElem.mp hpair j n (by omega) hlt hj
  simp [windowHolds_eq_false_of_disjoint hdisj hin]

theorem deviceAtAddress_eq_none (hout : ∀ dc ∈ c.devices, windowHolds dc addr = false) :
    deviceAtAddress c addr = none :=
  List.findIdx?_eq_none_iff.mpr hout

theorem busTarget_eq_some {d : DevId} (hv : c.valid = true) (hdc : c.devices[d.toNat]? = some dc)
    (hin : windowHolds dc addr = true) :
    busTarget c addr = some (d, BitVec.ofNat 4 (addr % dc.kind.window)) := by
  simp [busTarget, deviceAtAddress_eq_some hv hdc hin, Config.kinds_getElem?_of_devices hdc, windowOffset_eq_mod]

theorem busTarget_eq_none (hout : ∀ dc ∈ c.devices, windowHolds dc addr = false) : busTarget c addr = none := by
  rw [busTarget, deviceAtAddress_eq_none hout]

/-- The word of a register read decodes to the read of the device's kind at the offset presented (R122). -/
theorem decode_readWord {kinds : List Kind} {d : DevId} {k : Kind} (hk : kinds[d.toNat]? = some k) (off : BitVec 4) :
    decode kinds (readWord d off) = .ok (decodeRead k d off) :=
  decode_packWord_at hk _ _ _

/-- The word of a register write decodes to the write of the device's kind at the offset presented (R122). -/
theorem decode_writeWord {kinds : List Kind} {d : DevId} {k : Kind} (hk : kinds[d.toNat]? = some k) (off : BitVec 4)
    (v : Byte) : decode kinds (writeWord d off v) = .ok (decodeWrite k d off v) :=
  decode_packWord_at hk _ _ _

/-- Settles O58: an address in a window has that device as its target, one in no window has none, and the words of a
target decode to its register accesses. -/
theorem busAccessReachesTheWindowsDevice : Obligations.BusAccessReachesTheWindowsDevice := by
  refine ⟨fun c addr v d dc hv hdc hbase hend => ?_, fun c addr hout => ?_⟩
  · have htarget := busTarget_eq_some hv hdc (windowHolds_iff.mpr ⟨hbase, hend⟩)
    have hkind := Config.kinds_getElem?_of_devices hdc
    refine ⟨readWord d _, writeWord d _ v, ?_, ?_, decode_readWord hkind _, decode_writeWord hkind _ v⟩
    · rw [busReadWord, htarget]
      rfl
    · rw [busWriteWord, htarget]
      rfl
  · have htarget : busTarget c addr = none := busTarget_eq_none fun dc hdc => by
      have haway := hout dc hdc
      rw [← Bool.not_eq_true, windowHolds_iff]
      omega
    exact ⟨by rw [busReadWord, htarget]; rfl, fun v => by rw [busWriteWord, htarget]; rfl⟩

end Sys2Proof.Machine
end

section
/-! The decoder on the fields of a word (spec 30_encoding.md R120 to R123): which fields it accepts and which it
refuses. -/

namespace Sys2Proof

/-! ### Kinds and formats -/

/-- The format of the rows that only devices of this kind have. -/
def Kind.format : Kind → Format
  | .via => .via
  | .acia => .acia
  | .pia => .pia

section
variable {k : Kind}

@[simp] theorem via_admits_iff : Format.via.admits k = true ↔ k = .via := by
  cases k <;> decide

@[simp] theorem acia_admits_iff : Format.acia.admits k = true ↔ k = .acia := by
  cases k <;> decide

@[simp] theorem pia_admits_iff : Format.pia.admits k = true ↔ k = .pia := by
  cases k <;> decide

@[simp] theorem any_admits : Format.any.admits k = true := rfl

@[simp] theorem format_admits_self : k.format.admits k = true := by
  cases k <;> rfl

end

/-- An operation is well-formed where its device exists and has it (R122 steps 1 and 2). -/
theorem wellFormed_iff {kinds : List Kind} {i : Instr} :
    i.WellFormed kinds ↔ ∃ k, kinds[i.dev.toNat]? = some k ∧ i.format.admits k = true := by
  rw [Instr.WellFormed, Instr.illFormed]
  cases kinds[i.dev.toNat]? <;> simp

/-! ### The fields of a word -/

/-- The ten kind codes are exactly those that are not reserved (R121). -/
theorem opKindOf_eq_some_iff {code : BitVec 4} {op : OpKind} : opKindOf code = some op ↔ code = op.code := by
  cases op <;> revert code <;> decide

theorem opKindOf_eq_none_iff {code : BitVec 4} : opKindOf code = none ↔ 0xA ≤ code.toNat := by
  revert code
  decide

section
variable {kinds : List Kind} {f : WordFields} {k : Kind} {op : OpKind} {i : Instr}

theorem decodeFields_of_op (hk : kinds[f.dev.toNat]? = some k) (hop : f.kind = op.code) :
    decodeFields kinds f = decodeOp k op f := by
  rw [decodeFields, hk, opKindOf_eq_some_iff.mpr hop]

/-- The decoder accepts a word where its device exists, its kind code is not reserved, and the device's kind has the
operation (R122). -/
theorem decodeFields_eq_ok_iff :
    decodeFields kinds f = .ok i ↔
      ∃ k op, kinds[f.dev.toNat]? = some k ∧ f.kind = op.code ∧ decodeOp k op f = .ok i := by
  constructor
  · intro h
    unfold decodeFields at h
    split at h
    · cases h
    · rename_i k hk
      split at h
      · cases h
      · rename_i op hop
        exact ⟨k, op, hk, opKindOf_eq_some_iff.mp hop, h⟩
  · rintro ⟨k, op, hk, hop, h⟩
    exact (decodeFields_of_op hk hop).trans h

end

/-! ### Refused fields (R123) -/

/-- What R123 says of a word whose device exists, is of kind `k`, and whose kind code is that of `op`. -/
def RefusedAt (k : Kind) (f : WordFields) : OpKind → Prop
  | .rd => False
  | .wr => False
  | .step => False
  | .sig => 0x3 ≤ f.arg.toNat ∧ f.arg.toNat ≤ 0xE
  | .rxb => k ≠ .acia
  | .line => k ≠ .pia ∨ 0x4 ≤ f.arg.toNat ∨ 0x2 ≤ f.data.toNat
  | .pin => k ≠ .via ∨ 0x2 ≤ f.arg.toNat
  | .save => False
  | .load => False
  | .sink => k ≠ .acia ∨ 0x2 ≤ f.data.toNat

/-- The seven must-be-zero bits of a level or an attachment are 0 exactly for the data bytes 0 and 1. -/
theorem upperBits_eq_zero_iff (x : Byte) : x.extractLsb' 1 7 = 0 ↔ x.toNat < 2 := by
  revert x
  decide

section
variable {k : Kind} {d : DevId} {arg : BitVec 4} {x : Byte}

/-- Each kind of device has the four signal codes 0, 1, 2 and 0xF. -/
theorem decodeSignal_refuses_iff :
    (∃ why, decodeSignal k d arg = .error why) ↔ 0x3 ≤ arg.toNat ∧ arg.toNat ≤ 0xE := by
  have hlt : arg.toNat < 16 := arg.isLt
  unfold decodeSignal
  cases k <;> split <;> simp_all <;> omega

theorem decodeLine_refuses_iff :
    (∃ why, decodeLine d arg x = .error why) ↔ 0x4 ≤ arg.toNat ∨ 0x2 ≤ x.toNat := by
  simp only [decodeLine, ne_eq, upperBits_eq_zero_iff]
  split
  case isTrue hupper => simp [Nat.not_lt.mp hupper]
  case isFalse hupper =>
    split
    case h_5 _ h0 h1 h2 h3 =>
      rw [imp_false] at h0 h1 h2 h3
      have hline : 0x4 ≤ arg.toNat := by omega
      simp [hline]
    all_goals simp_all

theorem decodePin_refuses_iff : (∃ why, decodePin d arg x = .error why) ↔ 0x2 ≤ arg.toNat := by
  unfold decodePin
  split
  case h_3 _ h0 h1 =>
    have hport : 0x2 ≤ arg.toNat := (Nat.two_le_iff _).mpr ⟨h0, h1⟩
    simp [hport]
  all_goals simp_all

theorem decodeSink_refuses_iff : (∃ why, decodeSink d x = .error why) ↔ 0x2 ≤ x.toNat := by
  simp only [decodeSink, ne_eq, upperBits_eq_zero_iff]
  split
  case isTrue hupper => simp [Nat.not_lt.mp hupper]
  case isFalse hupper => simpa using hupper

end

section
variable {kinds : List Kind} {f : WordFields} {k : Kind} {op : OpKind}

theorem decodeOp_refuses_iff : (∃ why, decodeOp k op f = .error why) ↔ RefusedAt k f op := by
  cases op
  case rd | wr | step | save | load => simp [decodeOp, RefusedAt]
  case sig => exact decodeSignal_refuses_iff
  case rxb => cases k <;> simp [decodeOp, RefusedAt]
  case line => cases k <;> simp [decodeOp, RefusedAt, decodeLine_refuses_iff]
  case pin => cases k <;> simp [decodeOp, RefusedAt, decodePin_refuses_iff]
  case sink => cases k <;> simp [decodeOp, RefusedAt, decodeSink_refuses_iff]

theorem decodeOp_accepts_iff : (∃ i, decodeOp k op f = .ok i) ↔ ¬ RefusedAt k f op := by
  rw [← decodeOp_refuses_iff]
  cases decodeOp k op f <;> simp

/-- The decoder refuses a word whose device is absent, whose kind code is reserved, or that the device's kind refuses
(R123). -/
theorem decodeFields_refuses_iff :
    (∃ why, decodeFields kinds f = .error why) ↔
      kinds[f.dev.toNat]? = none ∨ 0xA ≤ f.kind.toNat ∨
        ∃ k op, kinds[f.dev.toNat]? = some k ∧ f.kind = op.code ∧ RefusedAt k f op := by
  cases hk : kinds[f.dev.toNat]? with
  | none => simp [decodeFields, hk]
  | some k =>
    cases hop : opKindOf f.kind with
    | none => simp [decodeFields, hk, hop, opKindOf_eq_none_iff.mp hop]
    | some op =>
      have hcode : ∀ op', f.kind = op'.code ↔ op = op' := by
        intro op'
        rw [← opKindOf_eq_some_iff, hop, Option.some_inj]
      have hlow : ¬ 0xA ≤ f.kind.toNat := by
        rw [← opKindOf_eq_none_iff, hop]
        exact Option.some_ne_none op
      simp [decodeFields, hk, hop, decodeOp_refuses_iff, hcode, hlow]

end

/-- The refused kind codes one by one. -/
theorem exists_op_refused_iff {k : Kind} {f : WordFields} :
    (∃ op, f.kind = OpKind.code op ∧ RefusedAt k f op) ↔
      (f.kind = 0x3 ∧ 0x3 ≤ f.arg.toNat ∧ f.arg.toNat ≤ 0xE) ∨
      (f.kind = 0x4 ∧ k ≠ .acia) ∨
      (f.kind = 0x5 ∧ (k ≠ .pia ∨ 0x4 ≤ f.arg.toNat ∨ 0x2 ≤ f.data.toNat)) ∨
      (f.kind = 0x6 ∧ (k ≠ .via ∨ 0x2 ≤ f.arg.toNat)) ∨
      (f.kind = 0x9 ∧ (k ≠ .acia ∨ 0x2 ≤ f.data.toNat)) := by
  constructor
  · rintro ⟨op, hop, hrefused⟩
    cases op
    case rd | wr | step | save | load => exact hrefused.elim
    case sig => exact .inl ⟨hop, hrefused⟩
    case rxb => exact .inr (.inl ⟨hop, hrefused⟩)
    case line => exact .inr (.inr (.inl ⟨hop, hrefused⟩))
    case pin => exact .inr (.inr (.inr (.inl ⟨hop, hrefused⟩)))
    case sink => exact .inr (.inr (.inr (.inr ⟨hop, hrefused⟩)))
  · rintro (h | h | h | h | h)
    · exact ⟨.sig, h⟩
    · exact ⟨.rxb, h⟩
    · exact ⟨.line, h⟩
    · exact ⟨.pin, h⟩
    · exact ⟨.sink, h⟩

end Sys2Proof

namespace Sys2Proof.Machine

theorem step_of_decode_error {s : State} {w : HopWord} {why : Reject} (hv : s.cfg.valid = true)
    (hf : s.fetch = some w) (hd : decode s.cfg.kinds w = .error why) : step s = .refused (.refusedWord why) := by
  rw [step, if_pos hv, hf]
  simp only [hd]

/-- Settles O4: the decoder's refusals kind code by kind code, and the branch of `step` that an error takes. -/
theorem refusedWordsAreTheReservedOnes : Obligations.RefusedWordsAreTheReservedOnes := by
  refine ⟨fun kinds f => ?_, fun s w why hv hf hd => step_of_decode_error hv hf hd⟩
  rw [decode_packWord, decodeFields_refuses_iff]
  cases hk : kinds[f.dev.toNat]? with
  | none => simp
  | some k =>
    simp only [reduceCtorEq, false_or, Option.some_inj, exists_and_left, exists_eq_left', ne_eq]
    refine or_congr Iff.rfl ?_
    exact exists_op_refused_iff

end Sys2Proof.Machine
end

section
/-! The rows of spec/opcode_table.json in the fields of a word: the row that the fields the decoder accepts belong to,
and the fields of a canonical word (spec 30_encoding.md R121, R122). -/

namespace Sys2Proof

/-! ### The fields a row fixes -/

/-- Two concatenations are the same word exactly when their parts are. -/
theorem append_eq_append_iff {m n : Nat} {x x' : BitVec m} {y y' : BitVec n} :
    x ++ y = x' ++ y' ↔ x = x' ∧ y = y' := by
  refine ⟨fun h => ⟨?_, ?_⟩, fun ⟨hx, hy⟩ => by rw [hx, hy]⟩
  · simpa only [BitVec.extractLsb'_append_eq_left] using congrArg (BitVec.extractLsb' n m) h
  · simpa only [BitVec.extractLsb'_append_eq_right] using congrArg (BitVec.extractLsb' 0 n) h

theorem and_0xF (a : BitVec 4) : a &&& 0xF = a := BitVec.and_allOnes

/-- A row that fixes the kind code, the bits of `arg` in a mask, and zeros in the bits of `data` in a mask. -/
def fieldRow (fmt : Format) (op : OpKind) (argMask arg : BitVec 4) (dataMask : Byte) : TableRow :=
  ⟨fmt, op.code ++ arg ++ 0#8, 0xF#4 ++ argMask ++ dataMask⟩

/-- A row of that form is fitted field by field. -/
theorem fits_fieldRow_iff {fmt : Format} {op : OpKind} {argMask arg : BitVec 4} {dataMask : Byte} {f : WordFields} :
    (fieldRow fmt op argMask arg dataMask).fits (packWord f) = true ↔
      f.kind = op.code ∧ f.arg &&& argMask = arg ∧ f.data &&& dataMask = 0 := by
  have hlow : (packWord f).extractLsb' 0 16 = f.kind ++ f.arg ++ f.data := by
    apply BitVec.eq_of_getLsbD_eq
    intro i hi
    simp only [BitVec.getLsbD_extractLsb', getLsbD_packWord, BitVec.getLsbD_append]
    grind
  have hall : f.kind &&& 0xF#4 = f.kind := BitVec.and_allOnes
  have hmasked : (f.kind ++ f.arg ++ f.data) &&& (0xF#4 ++ argMask ++ dataMask) =
      f.kind ++ (f.arg &&& argMask) ++ (f.data &&& dataMask) := by
    refine BitVec.and_append.trans ?_
    rw [BitVec.and_append, hall]
  simp only [TableRow.fits, fieldRow, hlow, beq_iff_eq]
  refine (Eq.congr_left hmasked).trans ?_
  refine append_eq_append_iff.trans ?_
  rw [append_eq_append_iff, and_assoc]
  rfl

/-- The bits of `arg` that tell rows of a device of kind `k` apart (R121): all of a register offset, but for a 4-byte
window the low two, a signal code, and a line or port select. -/
def argMask (k : Kind) : OpKind → BitVec 4
  | .rd | .wr =>
    match k with
    | .via => 0xF
    | .acia | .pia => 0x3
  | .sig | .line | .pin => 0xF
  | .step | .rxb | .save | .load | .sink => 0x0

/-- The bits of `data` that must be zero (R121): all but the level or the attachment in bit 0. -/
def dataMask : OpKind → Byte
  | .line | .sink => 0xFE
  | .rd | .wr | .step | .sig | .rxb | .pin | .save | .load => 0x00

/-- The format of the row a word with these fields belongs to: saves and two signals are for any kind (R121). -/
def formatAt (k : Kind) (arg : BitVec 4) : OpKind → Format
  | .sig => if arg = 0x0 ∨ arg = 0xF then .any else k.format
  | .save => .any
  | .rd | .wr | .step | .rxb | .line | .pin | .load | .sink => k.format

/-- The row that a word with these fields belongs to at a device of kind `k`. -/
def rowAt (k : Kind) (op : OpKind) (arg : BitVec 4) : TableRow :=
  fieldRow (formatAt k arg op) op (argMask k op) (arg &&& argMask k op) (dataMask op)

theorem formatAt_admits (k : Kind) (arg : BitVec 4) (op : OpKind) : (formatAt k arg op).admits k = true := by
  cases op
  case sig =>
    rw [formatAt]
    split
    · exact any_admits
    · exact format_admits_self
  case save => exact any_admits
  all_goals exact format_admits_self

/-- The row depends on the bits of `arg` in its mask only. -/
theorem rowAt_congr {k : Kind} {op : OpKind} {a b : BitVec 4} (h : a &&& argMask k op = b &&& argMask k op) :
    rowAt k op a = rowAt k op b := by
  have hfmt : formatAt k a op = formatAt k b op := by
    cases op
    case sig =>
      have hab : a = b := by simpa only [argMask, and_0xF] using h
      rw [hab]
    all_goals rfl
  rw [rowAt, rowAt, hfmt, h]

/-- Where no bit of `arg` is in the mask, the row is that of `arg` 0. -/
theorem rowAt_of_argMask_eq_zero {k : Kind} {op : OpKind} {a : BitVec 4} (h : argMask k op = 0) :
    rowAt k op a = rowAt k op 0 :=
  rowAt_congr (by simp [h])

theorem row_format (i : Instr) : i.row.format = i.format := by
  cases i <;> rfl

/-! ### Accepted fields -/

/-- An operation of this device and this row. -/
structure Instr.IsOf (i : Instr) (d : DevId) (r : TableRow) : Prop where
  dev : i.dev = d
  row : i.row = r

section
variable (d : DevId) (x : Byte) (k : Kind) (arg : BitVec 4)

theorem viaReadOp_isOf (r : ViaReg) : (viaReadOp d r).IsOf d (fieldRow .via .rd 0xF r.offset 0x00) := by
  cases r <;> exact ⟨rfl, rfl⟩

theorem viaWriteOp_isOf (r : ViaReg) : (viaWriteOp d x r).IsOf d (fieldRow .via .wr 0xF r.offset 0x00) := by
  cases r <;> exact ⟨rfl, rfl⟩

theorem aciaReadOp_isOf (r : AciaReg) :
    (aciaReadOp d r).IsOf d (fieldRow .acia .rd 0x3 (argOfOffset2 r.offset) 0x00) := by
  cases r <;> exact ⟨rfl, rfl⟩

theorem aciaWriteOp_isOf (r : AciaReg) :
    (aciaWriteOp d x r).IsOf d (fieldRow .acia .wr 0x3 (argOfOffset2 r.offset) 0x00) := by
  cases r <;> exact ⟨rfl, rfl⟩

theorem piaReadOp_isOf (r : PiaReg) :
    (piaReadOp d r).IsOf d (fieldRow .pia .rd 0x3 (argOfOffset2 r.offset) 0x00) := by
  cases r <;> exact ⟨rfl, rfl⟩

theorem piaWriteOp_isOf (r : PiaReg) :
    (piaWriteOp d x r).IsOf d (fieldRow .pia .wr 0x3 (argOfOffset2 r.offset) 0x00) := by
  cases r <;> exact ⟨rfl, rfl⟩

/-- All four bits of `arg` are the offset of a VIA register (R101). -/
theorem offset_viaRegAt : (viaRegAt arg).offset = arg &&& 0xF := by
  revert arg
  decide

/-- The low two bits of `arg` are the offset of an ACIA register (R102). -/
theorem offset_aciaRegAt : argOfOffset2 (aciaRegAt (maskOffset2 arg)).offset = arg &&& 0x3 := by
  revert arg
  decide

/-- The low two bits of `arg` are the offset of a PIA register (R103). -/
theorem offset_piaRegAt : argOfOffset2 (piaRegAt (maskOffset2 arg)).offset = arg &&& 0x3 := by
  revert arg
  decide

theorem decodeRead_isOf : (decodeRead k d arg).IsOf d (rowAt k .rd arg) := by
  cases k
  case via =>
    have h := viaReadOp_isOf d (viaRegAt arg)
    rw [offset_viaRegAt] at h
    exact h
  case acia =>
    have h := aciaReadOp_isOf d (aciaRegAt (maskOffset2 arg))
    rw [offset_aciaRegAt] at h
    exact h
  case pia =>
    have h := piaReadOp_isOf d (piaRegAt (maskOffset2 arg))
    rw [offset_piaRegAt] at h
    exact h

theorem decodeWrite_isOf : (decodeWrite k d arg x).IsOf d (rowAt k .wr arg) := by
  cases k
  case via =>
    have h := viaWriteOp_isOf d x (viaRegAt arg)
    rw [offset_viaRegAt] at h
    exact h
  case acia =>
    have h := aciaWriteOp_isOf d x (aciaRegAt (maskOffset2 arg))
    rw [offset_aciaRegAt] at h
    exact h
  case pia =>
    have h := piaWriteOp_isOf d x (piaRegAt (maskOffset2 arg))
    rw [offset_piaRegAt] at h
    exact h

end

section
variable {d : DevId} {x : Byte} {k : Kind} {arg : BitVec 4} {op : OpKind} {f : WordFields} {i : Instr}

theorem eq_ofNat_of_toNat_eq {n : Nat} (h : arg.toNat = n) : arg = BitVec.ofNat 4 n := by
  rw [← h, BitVec.ofNat_toNat, BitVec.setWidth_eq]

theorem anySigReset_isOf : (Instr.anySigReset d).IsOf d (rowAt k .sig 0x0) := by
  cases k <;> exact ⟨rfl, rfl⟩

theorem anySigOther_isOf : (Instr.anySigOther d).IsOf d (rowAt k .sig 0xF) := by
  cases k <;> exact ⟨rfl, rfl⟩

theorem decodeSignal_isOf (h : decodeSignal k d arg = .ok i) : i.IsOf d (rowAt k .sig arg) := by
  unfold decodeSignal at h
  split at h
  case h_9 => cases h
  all_goals
    rename_i harg
    obtain rfl := eq_ofNat_of_toNat_eq harg
    cases h
  case h_1 => exact anySigReset_isOf
  case h_8 => exact anySigOther_isOf
  all_goals exact ⟨rfl, rfl⟩

theorem decodeLine_isOf (h : decodeLine d arg x = .ok i) : i.IsOf d (rowAt .pia .line arg) := by
  unfold decodeLine at h
  split at h
  · cases h
  · split at h
    case h_5 => cases h
    all_goals
      rename_i harg
      obtain rfl := eq_ofNat_of_toNat_eq harg
      cases h
      exact ⟨rfl, rfl⟩

theorem decodePin_isOf (h : decodePin d arg x = .ok i) : i.IsOf d (rowAt .via .pin arg) := by
  unfold decodePin at h
  split at h
  case h_3 => cases h
  all_goals
    rename_i harg
    obtain rfl := eq_ofNat_of_toNat_eq harg
    cases h
    exact ⟨rfl, rfl⟩

theorem decodeSink_isOf (h : decodeSink d x = .ok i) : i.IsOf d (rowAt .acia .sink arg) := by
  unfold decodeSink at h
  split at h
  · cases h
  · cases h
    rw [rowAt_of_argMask_eq_zero rfl]
    exact ⟨rfl, rfl⟩

theorem decodeStep_isOf : (decodeStep k d).IsOf d (rowAt k .step arg) := by
  rw [rowAt_of_argMask_eq_zero rfl]
  cases k <;> exact ⟨rfl, rfl⟩

theorem anySave_isOf : (Instr.anySave d).IsOf d (rowAt k .save arg) := by
  rw [rowAt_of_argMask_eq_zero rfl]
  cases k <;> exact ⟨rfl, rfl⟩

theorem aciaRxb_isOf : (Instr.aciaRxb d x).IsOf d (rowAt .acia .rxb arg) := by
  rw [rowAt_of_argMask_eq_zero rfl]
  exact ⟨rfl, rfl⟩

theorem decodeLoad_isOf : (decodeLoad k d x).IsOf d (rowAt k .load arg) := by
  rw [rowAt_of_argMask_eq_zero rfl]
  cases k <;> exact ⟨rfl, rfl⟩

/-- What the decoder accepts is an operation of the word's device and of the row its fields belong to. -/
theorem decodeOp_isOf (h : decodeOp k op f = .ok i) : i.IsOf f.dev (rowAt k op f.arg) := by
  cases op
  case rd =>
    cases h
    exact decodeRead_isOf f.dev k f.arg
  case wr =>
    cases h
    exact decodeWrite_isOf f.dev f.data k f.arg
  case step =>
    cases h
    exact decodeStep_isOf
  case load =>
    cases h
    exact decodeLoad_isOf
  case save =>
    cases h
    exact anySave_isOf
  case sig => exact decodeSignal_isOf h
  case rxb =>
    cases k <;> cases h
    exact aciaRxb_isOf
  case line =>
    cases k
    case pia => exact decodeLine_isOf h
    all_goals cases h
  case pin =>
    cases k
    case via => exact decodePin_isOf h
    all_goals cases h
  case sink =>
    cases k
    case acia => exact decodeSink_isOf h
    all_goals cases h

theorem and_0xFE_eq_zero_iff (x : Byte) : x &&& 0xFE = 0 ↔ x.toNat < 2 := by
  revert x
  decide

/-- The must-be-zero bits of an accepted word are 0. -/
theorem dataMask_of_accepted (h : ¬ RefusedAt k f op) : f.data &&& dataMask op = 0 := by
  cases op
  case line | sink =>
    simp only [RefusedAt, not_or, not_le] at h
    exact (and_0xFE_eq_zero_iff f.data).mpr (by omega)
  all_goals exact BitVec.and_zero

/-- Whether a word is accepted depends on the fixed bits of its row only. -/
theorem accepted_of_masks {g : WordFields} (hg : ¬ RefusedAt k g op)
    (harg : f.arg &&& argMask k op = g.arg &&& argMask k op) (hdata : f.data &&& dataMask op = 0) :
    ¬ RefusedAt k f op := by
  cases op
  case rd | wr | step | rxb | save | load => exact hg
  case sig | pin =>
    have heq : f.arg = g.arg := by simpa only [argMask, and_0xF] using harg
    simpa only [RefusedAt, heq] using hg
  case line =>
    have heq : f.arg = g.arg := by simpa only [argMask, and_0xF] using harg
    have hlt := (and_0xFE_eq_zero_iff f.data).mp hdata
    simp only [RefusedAt, heq, not_or, not_le] at hg ⊢
    obtain ⟨hkind, hline, -⟩ := hg
    exact ⟨hkind, hline, hlt⟩
  case sink =>
    have hlt := (and_0xFE_eq_zero_iff f.data).mp hdata
    simp only [RefusedAt, not_or, not_le] at hg ⊢
    obtain ⟨hkind, -⟩ := hg
    exact ⟨hkind, hlt⟩

end

/-! ### The encoder -/

section
variable {k : Kind} {i : Instr} {b : Bool}

@[simp] theorem dev_encodeFields (i : Instr) : (encodeFields i).dev = i.dev := by
  cases i <;> rfl

/-- A level or an attachment as written in `data` has its must-be-zero bits 0. -/
@[simp] theorem upperBits_boolData : (boolData b).extractLsb' 1 7 = 0 := by
  cases b <;> rfl

/-- A level or an attachment is read back from `data`. -/
@[simp] theorem getElem_boolData_zero : (boolData b)[0] = b := by
  cases b <;> rfl

/-- The canonical fields of an operation decode to it at every kind that has it. -/
theorem decodeOp_encodeFields (h : i.format.admits k = true) :
    ∃ op, (encodeFields i).kind = op.code ∧ decodeOp k op (encodeFields i) = .ok i := by
  cases i
  case anySigReset | anySigOther => exact ⟨.sig, rfl, rfl⟩
  case anySave => exact ⟨.save, rfl, rfl⟩
  case viaRdOrb | viaRdOra | viaRdDdrb | viaRdDdra | viaRdT1cl | viaRdT1ch | viaRdT1ll | viaRdT1lh | viaRdT2cl |
      viaRdT2ch | viaRdSr | viaRdAcr | viaRdPcr | viaRdIfr | viaRdIer | viaRdOrax =>
    obtain rfl := via_admits_iff.mp h
    exact ⟨.rd, rfl, rfl⟩
  case viaWrOrb | viaWrOra | viaWrDdrb | viaWrDdra | viaWrT1cl | viaWrT1ch | viaWrT1ll | viaWrT1lh | viaWrT2cl |
      viaWrT2ch | viaWrSr | viaWrAcr | viaWrPcr | viaWrIfr | viaWrIer | viaWrOrax =>
    obtain rfl := via_admits_iff.mp h
    exact ⟨.wr, rfl, rfl⟩
  case viaStep =>
    obtain rfl := via_admits_iff.mp h
    exact ⟨.step, rfl, rfl⟩
  case viaSigNmi | viaSigIrq =>
    obtain rfl := via_admits_iff.mp h
    exact ⟨.sig, rfl, rfl⟩
  case viaPinA | viaPinB =>
    obtain rfl := via_admits_iff.mp h
    exact ⟨.pin, rfl, rfl⟩
  case viaLoad =>
    obtain rfl := via_admits_iff.mp h
    exact ⟨.load, rfl, rfl⟩
  case aciaRdData | aciaRdStat | aciaRdCtrl | aciaRdTest =>
    obtain rfl := acia_admits_iff.mp h
    exact ⟨.rd, rfl, rfl⟩
  case aciaWrData | aciaWrCmd | aciaWrCtrl | aciaWrTest =>
    obtain rfl := acia_admits_iff.mp h
    exact ⟨.wr, rfl, rfl⟩
  case aciaStep =>
    obtain rfl := acia_admits_iff.mp h
    exact ⟨.step, rfl, rfl⟩
  case aciaSigNmi | aciaSigIrq =>
    obtain rfl := acia_admits_iff.mp h
    exact ⟨.sig, rfl, rfl⟩
  case aciaRxb =>
    obtain rfl := acia_admits_iff.mp h
    exact ⟨.rxb, rfl, rfl⟩
  case aciaLoad =>
    obtain rfl := acia_admits_iff.mp h
    exact ⟨.load, rfl, rfl⟩
  case aciaSink =>
    obtain rfl := acia_admits_iff.mp h
    exact ⟨.sink, rfl, by simp [encodeFields, decodeOp, decodeSink]⟩
  case piaRdPb | piaRdPa | piaRdCrb | piaRdCra =>
    obtain rfl := pia_admits_iff.mp h
    exact ⟨.rd, rfl, rfl⟩
  case piaWrPb | piaWrPa | piaWrCrb | piaWrCra =>
    obtain rfl := pia_admits_iff.mp h
    exact ⟨.wr, rfl, rfl⟩
  case piaStep =>
    obtain rfl := pia_admits_iff.mp h
    exact ⟨.step, rfl, rfl⟩
  case piaSigNmi | piaSigIrq =>
    obtain rfl := pia_admits_iff.mp h
    exact ⟨.sig, rfl, rfl⟩
  case piaLineCa1 | piaLineCa2 | piaLineCb1 | piaLineCb2 =>
    obtain rfl := pia_admits_iff.mp h
    exact ⟨.line, rfl, by simp [encodeFields, decodeOp, decodeLine]⟩
  case piaLoad =>
    obtain rfl := pia_admits_iff.mp h
    exact ⟨.load, rfl, rfl⟩

end

/-- Settles O2: the word's device is the operation's, and its canonical fields decode to it at the kind that has it. -/
theorem decodeEncodeAgree : Obligations.DecodeEncodeAgree := by
  intro kinds i hwf
  obtain ⟨k, hk, hadmits⟩ := wellFormed_iff.mp hwf
  obtain ⟨op, hop, hdecode⟩ := decodeOp_encodeFields hadmits
  rw [encode, decode_packWord, decodeFields_eq_ok_iff]
  exact ⟨k, op, (dev_encodeFields i).symm ▸ hk, hop, hdecode⟩

/-- A decoded operation is well-formed, names the device of its word and fits its row. -/
theorem decoded_fits_row {kinds : List Kind} {f : WordFields} {i : Instr} (h : decodeFields kinds f = .ok i) :
    i.WellFormed kinds ∧ i.dev = f.dev ∧ i.row.fits (packWord f) = true := by
  obtain ⟨k, op, hk, hop, hdecode⟩ := decodeFields_eq_ok_iff.mp h
  obtain ⟨hdev, hrow⟩ := decodeOp_isOf hdecode
  have hdata : f.data &&& dataMask op = 0 := dataMask_of_accepted (decodeOp_accepts_iff.mp ⟨i, hdecode⟩)
  have hformat : i.format = formatAt k f.arg op := by rw [← row_format, hrow, rowAt, fieldRow]
  refine ⟨wellFormed_iff.mpr ⟨k, hdev ▸ hk, hformat ▸ formatAt_admits k f.arg op⟩, hdev, ?_⟩
  rw [hrow, rowAt, fits_fieldRow_iff]
  exact ⟨hop, rfl, hdata⟩

/-- A word that fits the row of an operation its device has decodes to an operation of that row: it agrees with the
operation's canonical word in the bits the row fixes. -/
theorem decodes_of_fits_row {kinds : List Kind} {f : WordFields} {i : Instr} (hwf : i.WellFormed kinds)
    (hdev : i.dev = f.dev) (hfits : i.row.fits (packWord f) = true) :
    ∃ j, decodeFields kinds f = .ok j ∧ j.row = i.row := by
  obtain ⟨k, hk, hadmits⟩ := wellFormed_iff.mp hwf
  obtain ⟨op, -, hcanonical⟩ := decodeOp_encodeFields hadmits
  have hrow : i.row = rowAt k op (encodeFields i).arg := (decodeOp_isOf hcanonical).row
  rw [hrow, rowAt, fits_fieldRow_iff] at hfits
  obtain ⟨hop, harg, hdata⟩ := hfits
  have haccepted : ¬ RefusedAt k f op :=
    accepted_of_masks (decodeOp_accepts_iff.mp ⟨i, hcanonical⟩) harg hdata
  obtain ⟨j, hj⟩ := decodeOp_accepts_iff.mpr haccepted
  refine ⟨j, decodeFields_eq_ok_iff.mpr ⟨k, op, hdev ▸ hk, hop, hj⟩, ?_⟩
  rw [(decodeOp_isOf hj).row, hrow, rowAt_congr harg]

/-- Settles O3, by the row that the fields of a word belong to. -/
theorem decoderAgreesWithOpcodeTable : Obligations.DecoderAgreesWithOpcodeTable := by
  refine ⟨fun kinds w i h => ?_, fun kinds w i hwf hdev hfits => ?_⟩
  · simpa only [packWord_unpackWord] using decoded_fits_row h
  · rw [← packWord_unpackWord w] at hfits
    exact decodes_of_fits_row hwf hdev hfits

end Sys2Proof
end

section
/-! `TICK` on a block (spec 30_encoding.md R127). -/

namespace Sys2Proof.Machine

variable {ndev : Nat} {d : DevId}

@[simp] theorem words_tick_one : TraceLine.words ndev (.tick 1) = tickWords ndev := by
  simp [TraceLine.words]

@[simp] theorem length_tickWords : (tickWords ndev).length = ndev := by
  simp [tickWords]

theorem tickWords_getElem? (h : d.toNat < ndev) : (tickWords ndev)[d.toNat]? = some (stepWord d) := by
  simp [tickWords, h]

/-- The word of a tick decodes to the tick of the device's kind (R122). -/
theorem decode_stepWord {kinds : List Kind} {k : Kind} (hk : kinds[d.toNat]? = some k) :
    decode kinds (stepWord d) = .ok (decodeStep k d) :=
  decode_packWord_at hk _ _ _

/-- Settles O59: the word at a device's index is the word of its own tick. -/
theorem tickStepsEveryDeviceInOrder : Obligations.TickStepsEveryDeviceInOrder := by
  intro c _
  rw [words_tick_one]
  refine ⟨length_tickWords, fun d k hk => ⟨stepWord d, tickWords_getElem? ?_, decode_stepWord hk⟩⟩
  obtain ⟨hlt, -⟩ := List.getElem?_eq_some_iff.mp hk
  simpa only [Config.kinds, Config.ndev, List.length_map] using hlt

end Sys2Proof.Machine
end

section
/-! Register reads of the PIA (spec 42_pia_parallel.md R252 to R255; 20_memory.md R72). -/

namespace Sys2Proof.Machine
open Sys2Proof.Statements

/-- A PIA register read sees the low two offset bits only (R72, R103). -/
theorem decodes_piaRead (hi off : BitVec 2) :
    Decodes .pia 0x0 (hi ++ off) (fun d _ => piaReadOp d (piaRegAt off)) := by
  intro kinds d x hk
  refine (decode_packWord_at hk _ _ _).trans ?_
  exact congrArg (fun o => Except.ok (piaReadOp d (piaRegAt o))) (maskOffset2_append hi off)

variable {s : State} {d : DevId} {p : Pia} {c : Bool}

/-- A PIA read that only answers returns its byte and changes nothing else. -/
theorem onPia_answer_eq (hat : s.slotAt d = some ⟨.pia p, c⟩) (value : Pia → Byte) :
    onPia d s (fun p c => .answer p c (value p)) = .next { s with ret := .byte (value p) } :=
  (onPia_eq hat _).trans (congrArg Host.Outcome.next (commit_same_byte hat))

/-- The control view bit group by bit group (R112). -/
theorem controlView_bits (irq : Bool) (cr : Byte) (line2 line1 : Bool) :
    (controlView irq cr line2 line1).getLsbD 7 = irq ∧
      (∀ i, 2 ≤ i → i ≤ 6 → (controlView irq cr line2 line1).getLsbD i = cr.getLsbD i) ∧
      (controlView irq cr line2 line1).getLsbD 1 = line2 ∧ (controlView irq cr line2 line1).getLsbD 0 = line1 := by
  simp only [getLsbD_controlView]
  refine ⟨by simp, fun i hlow hhigh => ?_, by simp, by simp⟩
  have hstored : i ≠ 0 ∧ i ≠ 1 ∧ i < 7 := by omega
  simp [hstored]

/-- Settles O37, by the bits of the view each control read returns. -/
theorem piaControlReadsMirrorFlagAndLines : Obligations.PiaControlReadsMirrorFlagAndLines := by
  refine ⟨fun hi => decodes_piaRead hi 2#2, fun hi => decodes_piaRead hi 3#2, fun s d p c hat => ⟨?_, ?_⟩⟩
  · exact ⟨_, onPia_answer_eq hat fun p => controlView p.irqb p.crb p.cb2 p.cb1, controlView_bits _ _ _ _⟩
  · exact ⟨_, onPia_answer_eq hat fun p => controlView p.irqa p.cra p.ca2 p.ca1, controlView_bits _ _ _ _⟩

end Sys2Proof.Machine
end

section
/-! What the operations of the VIA share (spec 40_via_timer_port.md): the encodings of its register accesses, and the
whole next state of an operation that only answers, only stores, or re-evaluates. -/

namespace Sys2Proof.Machine
open Sys2Proof.Statements

/-! ### Encodings -/

@[simp] theorem viaRegAt_offset (r : ViaReg) : viaRegAt r.offset = r := by
  cases r <;> rfl

theorem decodes_viaRead (r : ViaReg) : Decodes .via 0x0 r.offset (fun d _ => viaReadOp d r) := by
  intro kinds d x hk
  refine (decode_packWord_at hk _ _ _).trans ?_
  exact congrArg (fun r => Except.ok (viaReadOp d r)) (viaRegAt_offset r)

theorem decodes_viaWrite (r : ViaReg) : Decodes .via 0x1 r.offset (fun d x => viaWriteOp d x r) := by
  intro kinds d x hk
  refine (decode_packWord_at hk _ _ _).trans ?_
  exact congrArg (fun r => Except.ok (viaWriteOp d x r)) (viaRegAt_offset r)

/-! ### Single flags -/

theorem getLsbD_writeBit_true {w : Nat} (x : BitVec w) (i : Nat) {j : Nat} (hj : j < w) :
    (writeBit x i true).getLsbD j = (x.getLsbD j || decide (j = i)) := by
  rw [getLsbD_writeBit]
  by_cases h : j = i
  · simp [h, h ▸ hj]
  · simp [h, Ne.symm h]

theorem getLsbD_writeBit_false {w : Nat} (x : BitVec w) (i : Nat) {j : Nat} (hj : j < w) :
    (writeBit x i false).getLsbD j = (x.getLsbD j && decide (j ≠ i)) := by
  rw [getLsbD_writeBit]
  by_cases h : j = i
  · simp [h, h ▸ hj]
  · simp [h, Ne.symm h]

/-! ### Next states -/

theorem commit_of_no_events (s : State) (d : DevId) (slot : Slot) (ret : Returned) :
    s.commit d slot ret [] = { s with slots := s.slots.set d.toNat slot, ret := ret } := by
  rw [State.commit, List.append_nil]

variable {s : State} {d : DevId} {v v' : Via} {c c' : Bool} {f : Via → Bool → Effect Via}

/-- A VIA read that only answers returns its byte and changes nothing else. -/
theorem onVia_answer_eq (hat : s.slotAt d = some ⟨.via v, c⟩) (value : Via → Byte) :
    onVia d s (fun v c => .answer v c (value v)) = .next { s with ret := .byte (value v) } :=
  (onVia_eq hat _).trans (congrArg Host.Outcome.next (commit_same_byte hat))

/-- A silent operation writes its own slot and nothing else of the block. -/
theorem onVia_silent_eq (hat : s.slotAt d = some ⟨.via v, c⟩) (hf : f v c = .silent v' c') :
    onVia d s f = .next { s with slots := s.slots.set d.toNat ⟨.via v', c'⟩, ret := .nothing } := by
  rw [onVia_eq hat, hf]
  exact congrArg Host.Outcome.next (commit_of_no_events s d _ _)

/-- An operation that re-evaluates writes its own slot, with the want as the contribution (R323). -/
theorem onVia_reeval_eq {r : Returned} (hat : s.slotAt d = some ⟨.via v, c⟩) (hf : f v c = viaReeval v' r) :
    onVia d s f = .next { s with slots := s.slots.set d.toNat ⟨.via v', v'.want⟩, ret := r } := by
  rw [onVia_eq hat, hf]
  exact congrArg Host.Outcome.next (commit_of_no_events s d _ _)

end Sys2Proof.Machine
end

section
/-! The timers of the VIA (spec 40_via_timer_port.md R141, R175): one tick of both in either mode, and runs of ticks. -/

namespace Sys2Proof.Machine

/-! ### One tick in `wrap` mode -/

/-- The flags after a tick of the timer with flag `i` and counter `count`: a counter at 0 wraps and sets its flag
(R141). -/
def flagsAfterWrapTick (flags : Flags7) (i : Nat) (count : Count16) : Flags7 :=
  if count = 0 then writeBit flags i true else flags

theorem getLsbD_flagsAfterWrapTick (flags : Flags7) (i : Nat) (count : Count16) {j : Nat} (hj : j < 7) :
    (flagsAfterWrapTick flags i count).getLsbD j = (flags.getLsbD j || (decide (j = i) && count == 0)) := by
  by_cases hwrap : count = 0
  · simp only [flagsAfterWrapTick, hwrap, if_true, getLsbD_writeBit_true _ _ hj, beq_self_eq_true, Bool.and_true]
  · simp only [flagsAfterWrapTick, hwrap, if_false, beq_eq_false_iff_ne.mpr hwrap, Bool.and_false, Bool.or_false]

/-- The flags after a tick of both timers (R175). -/
def ViaRecord.flagsAfterTick (v : ViaRecord) : Flags7 :=
  flagsAfterWrapTick (flagsAfterWrapTick v.ifr bitT1 v.t1c) bitT2 v.t2c

theorem getLsbD_flagsAfterTick (v : ViaRecord) {i : Nat} (hi : i < 7) :
    v.flagsAfterTick.getLsbD i =
      (v.ifr.getLsbD i || (decide (i = 6) && v.t1c == 0) || (decide (i = 5) && v.t2c == 0)) := by
  rw [ViaRecord.flagsAfterTick, getLsbD_flagsAfterWrapTick _ _ _ hi, getLsbD_flagsAfterWrapTick _ _ _ hi]
  rfl

theorem timer1Flag_flagsAfterTick (v : ViaRecord) :
    v.flagsAfterTick.getLsbD 6 = (v.ifr.getLsbD 6 || v.t1c == 0) := by
  simpa only [decide_true, Bool.true_and, Nat.reduceEqDiff, decide_false, Bool.false_and, Bool.or_false] using
    getLsbD_flagsAfterTick v (show 6 < 7 by decide)

/-- A tick of both timers in `wrap` mode: the contribution is re-evaluated only if a counter wrapped (R141, R175). -/
theorem tickVia_wrap (v : Via) (c : Bool) :
    tickVia .wrap v c =
      ({ v with
          t1c := if v.t1c = 0 then v.t1l else v.t1c - 1
          t2c := if v.t2c = 0 then v.t2l else v.t2c - 1
          ifr := v.flagsAfterTick },
        if v.t1c = 0 ∨ v.t2c = 0 then (v.flagsAfterTick &&& v.ier) != 0 else c) := by
  rw [tickVia, tickTimer1_wrap, tickTimer2_wrap]
  by_cases h1 : v.t1c = 0 <;> by_cases h2 : v.t2c = 0 <;>
    simp only [h1, h2, ViaRecord.flagsAfterTick, flagsAfterWrapTick, if_true, if_false, or_true, or_false]

variable {s : State} {d : DevId} {v : Via} {c : Bool}

theorem exec_viaStep_eq (hat : s.slotAt d = some ⟨.via v, c⟩) :
    exec (.viaStep d) s = .next
      (s.commit d ⟨.via (tickVia s.cfg.timerMode v c).1, (tickVia s.cfg.timerMode v c).2⟩ .nothing []) :=
  onVia_eq hat _

/-- Settles O20, by what a tick of both timers does in each mode. -/
theorem viaStepTicksBothTimers : Obligations.ViaStepTicksBothTimers := by
  refine ⟨fun arg kinds d x hk => decode_packWord_at hk _ _ _, fun s d v c hmode hat => ?_,
    fun s d v c hmode hat => ⟨v.flagsAfterTick, fun i hi => getLsbD_flagsAfterTick _ hi, ?_⟩⟩
  · rw [exec_viaStep_eq hat, commit_of_no_events, hmode, tickVia_quirk]
  · rw [exec_viaStep_eq hat, commit_of_no_events, hmode, tickVia_wrap]

/-! ### Runs of ticks -/

/-- `n` ticks of a VIA and its contribution. -/
def ticksVia (mode : TimerMode) : Nat → Via → Bool → Via × Bool
  | 0, v, c => (v, c)
  | n + 1, v, c => tickVia mode (ticksVia mode n v c).1 (ticksVia mode n v c).2

/-- A run of ticks of a VIA completes, with the ticked device and contribution in its slot. -/
theorem runOps_viaStep (hat : s.slotAt d = some ⟨.via v, c⟩) (n : Nat) :
    ∃ t, runOps (List.replicate n (.viaStep d)) s = .next t ∧
      t.slotAt d = some ⟨.via (ticksVia s.cfg.timerMode n v c).1, (ticksVia s.cfg.timerMode n v c).2⟩ := by
  induction n with
  | zero => exact ⟨s, rfl, hat⟩
  | succ n ih =>
    obtain ⟨t, hrun, ht⟩ := ih
    refine ⟨_, ?_, slotAt_commit_self t d _ .nothing [] ht⟩
    rw [List.replicate_succ', runOps_append hrun, runOps_cons (exec_viaStep_eq ht), runOps_nil, runOps_cfg hrun]
    rfl

/-- Timer 1 of `v'` is that of `v` after `n` ticks without a wrap. -/
structure CountedDown (v v' : Via) (n : Nat) : Prop where
  counter : v'.t1c.toNat = v.t1c.toNat - n
  latch : v'.t1l = v.t1l
  flag : v'.ifr.getLsbD 6 = v.ifr.getLsbD 6

/-- A tick in `wrap` mode takes 1 from a timer 1 counter that is not 0, and leaves latch and flag (R141). -/
theorem tickVia_wrap_countedDown (hpos : v.t1c ≠ 0) : CountedDown v (tickVia .wrap v c).1 1 := by
  rw [tickVia_wrap]
  refine ⟨?_, rfl, ?_⟩
  · simp only [hpos, if_false]
    bv_omega
  · rw [timer1Flag_flagsAfterTick, beq_eq_false_iff_ne.mpr hpos, Bool.or_false]

/-- Before its counter has passed 0, timer 1 counts down without its flag. -/
theorem ticksVia_wrap_countedDown {n : Nat} (hn : n ≤ v.t1c.toNat) :
    CountedDown v (ticksVia .wrap n v c).1 n := by
  induction n with
  | zero => exact ⟨rfl, rfl, rfl⟩
  | succ n ih =>
    obtain ⟨hcounter, hlatch, hflag⟩ := ih (by omega)
    have hpos : (ticksVia .wrap n v c).1.t1c ≠ 0 := by
      bv_omega
    obtain ⟨hcounter', hlatch', hflag'⟩ := tickVia_wrap_countedDown (c := (ticksVia .wrap n v c).2) hpos
    exact ⟨by rw [ticksVia, hcounter', hcounter, Nat.sub_sub], hlatch'.trans hlatch, hflag'.trans hflag⟩

/-- A tick in `wrap` mode of a timer 1 counter at 0 reloads it, sets the flag and re-evaluates (R141). -/
theorem tickVia_wrap_of_zero (hzero : v.t1c = 0) :
    (tickVia .wrap v c).1.t1c = v.t1l ∧ (tickVia .wrap v c).1.t1l = v.t1l ∧
      (tickVia .wrap v c).1.ifr.getLsbD 6 = true ∧ (tickVia .wrap v c).2 = (tickVia .wrap v c).1.want := by
  rw [tickVia_wrap]
  refine ⟨if_pos hzero, rfl, ?_, if_pos (.inl hzero)⟩
  rw [timer1Flag_flagsAfterTick, beq_iff_eq.mpr hzero, Bool.or_true]

/-- Settles O23: timer 1 counts down to 0 in as many ticks as its latch says, and the next tick wraps it. -/
theorem viaTimerFiresAfterLatchPlusOneTicks : Obligations.ViaTimerFiresAfterLatchPlusOneTicks := by
  intro s d v c hmode hat hloaded hclear
  have hrun := fun n => hmode ▸ runOps_viaStep hat n
  constructor
  · intro n hn
    obtain ⟨t, ht, hslot⟩ := hrun n
    obtain ⟨hcounter, hlatch, hflag⟩ := ticksVia_wrap_countedDown (c := c) (hloaded ▸ hn : n ≤ v.t1c.toNat)
    exact ⟨t, _, _, ht, hslot, hloaded ▸ hcounter, hlatch, hflag.trans hclear⟩
  · obtain ⟨t, ht, hslot⟩ := hrun (v.t1l.toNat + 1)
    obtain ⟨hcounter, hlatch, -⟩ := ticksVia_wrap_countedDown (v := v) (c := c) (n := v.t1l.toNat) (by rw [hloaded])
    have hzero : (ticksVia .wrap v.t1l.toNat v c).1.t1c = 0 := by
      apply BitVec.eq_of_toNat_eq
      rw [hcounter, hloaded, Nat.sub_self]
      rfl
    obtain ⟨hreload, hkept, hflag, hwant⟩ := tickVia_wrap_of_zero (c := (ticksVia .wrap v.t1l.toNat v c).2) hzero
    exact ⟨t, _, _, ht, hslot, hreload.trans hlatch, hkept.trans hlatch, hflag, hwant⟩

end Sys2Proof.Machine
end

section
/-! Register accesses and pins of the VIA (spec 40_via_timer_port.md R140 to R176): each is one of the shared operations
at its encoding. -/

namespace Sys2Proof.Machine
open Sys2Proof.Statements

/-! ### Reads that only answer -/

/-- A VIA read that only answers, from its row of the dispatch. -/
theorem viaPlainRead_of_answer (r : ViaReg) {value : Via → Byte}
    (hexec : ∀ d s, exec (viaReadOp d r) s = onVia d s fun v c => .answer v c (value v)) :
    ViaPlainRead r.offset (fun d => viaReadOp d r) value :=
  ⟨decodes_viaRead r, fun s d _ _ hat => (hexec d s).trans (onVia_answer_eq hat value)⟩

/-- Settles O11: a port read answers the combination of latch and pins. -/
theorem viaPortReadsCombineLatchAndPins : Obligations.ViaPortReadsCombineLatchAndPins :=
  ⟨viaPlainRead_of_answer .orb fun _ _ => rfl, viaPlainRead_of_answer .ora fun _ _ => rfl,
    viaPlainRead_of_answer .orax fun _ _ => rfl⟩

/-- Settles O12: each of the nine reads answers the stored byte. -/
theorem viaStoredByteReads : Obligations.ViaStoredByteReads :=
  ⟨viaPlainRead_of_answer .ddrb fun _ _ => rfl, viaPlainRead_of_answer .ddra fun _ _ => rfl,
    viaPlainRead_of_answer .t1ch fun _ _ => rfl, viaPlainRead_of_answer .t1ll fun _ _ => rfl,
    viaPlainRead_of_answer .t1lh fun _ _ => rfl, viaPlainRead_of_answer .t2ch fun _ _ => rfl,
    viaPlainRead_of_answer .sr fun _ _ => rfl, viaPlainRead_of_answer .acr fun _ _ => rfl,
    viaPlainRead_of_answer .pcr fun _ _ => rfl⟩

/-- The want of a VIA flag by flag (R324). -/
theorem ViaRecord.want_iff (v : ViaRecord) :
    v.want = true ↔ ∃ i < 7, v.ifr.getLsbD i = true ∧ v.ier.getLsbD i = true := by
  have hbits : v.ifr &&& v.ier = 0 ↔ ∀ i < 7, ¬ (v.ifr.getLsbD i = true ∧ v.ier.getLsbD i = true) := by
    rw [BitVec.eq_of_getLsbD_eq_iff]
    simp only [BitVec.getLsbD_and, BitVec.ofNat_eq_ofNat, BitVec.getLsbD_zero, ← Bool.and_eq_true,
      Bool.not_eq_true]
  rw [ViaRecord.want, bne_iff_ne, ne_eq, hbits]
  simp only [not_forall, not_not, exists_prop]

/-- Settles O13, by the bits of the two views. -/
theorem viaInterruptRegisterReads : Obligations.ViaInterruptRegisterReads := by
  refine ⟨decodes_viaRead .ifr, decodes_viaRead .ier, fun s d v c hat => ⟨?_, ?_⟩⟩
  · refine ⟨_, onVia_answer_eq hat fun v => ifrView v.toViaRecord, fun i hi => ?_, ?_⟩
    · rw [getLsbD_ifrView, if_pos hi]
    · rw [getLsbD_ifrView]
      exact v.want_iff
  · refine ⟨_, onVia_answer_eq hat fun v => ierView v.toViaRecord, fun i hi => ?_, ?_⟩
    · rw [getLsbD_ierView, if_pos hi]
    · rw [getLsbD_ierView]
      rfl

/-! ### Writes that only store -/

/-- A VIA write that only stores, from its row of the dispatch. -/
theorem viaPlainWrite_of_silent (r : ViaReg) {update : Via → Byte → Via}
    (hexec : ∀ d x s, exec (viaWriteOp d x r) s = onVia d s fun v c => .silent (update v x) c) :
    ViaPlainWrite r.offset (fun d x => viaWriteOp d x r) update :=
  ⟨decodes_viaWrite r, fun s d x _ _ hat => (hexec d x s).trans (onVia_silent_eq hat rfl)⟩

/-- Settles O15: each of the eight writes stores its byte. -/
theorem viaPlainWritesStoreTheByte : Obligations.ViaPlainWritesStoreTheByte :=
  ⟨viaPlainWrite_of_silent .orb fun _ _ _ => rfl, viaPlainWrite_of_silent .ora fun _ _ _ => rfl,
    viaPlainWrite_of_silent .ddrb fun _ _ _ => rfl, viaPlainWrite_of_silent .ddra fun _ _ _ => rfl,
    viaPlainWrite_of_silent .sr fun _ _ _ => rfl, viaPlainWrite_of_silent .acr fun _ _ _ => rfl,
    viaPlainWrite_of_silent .pcr fun _ _ _ => rfl, viaPlainWrite_of_silent .orax fun _ _ _ => rfl⟩

/-- Settles O16: each of the four writes replaces its byte of a latch. -/
theorem viaLatchByteWrites : Obligations.ViaLatchByteWrites :=
  ⟨viaPlainWrite_of_silent .t1cl fun _ _ _ => rfl, viaPlainWrite_of_silent .t1ll fun _ _ _ => rfl,
    viaPlainWrite_of_silent .t1lh fun _ _ _ => rfl, viaPlainWrite_of_silent .t2cl fun _ _ _ => rfl⟩

/-! ### Accesses that re-evaluate -/

/-- Settles O14: a low counter read clears its timer's flag and re-evaluates. -/
theorem viaLowCounterReadsClearTheFlag : Obligations.ViaLowCounterReadsClearTheFlag := by
  refine ⟨decodes_viaRead .t1cl, decodes_viaRead .t2cl, fun s d v c hat => ⟨?_, ?_⟩⟩
  · exact ⟨writeBit v.ifr bitT1 false, fun i hi => getLsbD_writeBit_false _ _ hi, onVia_reeval_eq hat rfl⟩
  · exact ⟨writeBit v.ifr bitT2 false, fun i hi => getLsbD_writeBit_false _ _ hi, onVia_reeval_eq hat rfl⟩

/-- Settles O17: a high counter write loads latch and counter, clears its timer's flag and re-evaluates. -/
theorem viaHighCounterWritesLoadAndClear : Obligations.ViaHighCounterWritesLoadAndClear := by
  refine ⟨decodes_viaWrite .t1ch, decodes_viaWrite .t2ch, fun s d x v c hat => ⟨?_, ?_⟩⟩
  · exact ⟨writeBit v.ifr bitT1 false, fun i hi => getLsbD_writeBit_false _ _ hi, onVia_reeval_eq hat rfl⟩
  · exact ⟨writeBit v.ifr bitT2 false, fun i hi => getLsbD_writeBit_false _ _ hi, onVia_reeval_eq hat rfl⟩

/-- The flags after an IFR write (R171). -/
theorem getLsbD_ifrAfterWrite (ifr : Flags7) (x : Byte) {i : Nat} (hi : i < 7) :
    (ifrAfterWrite ifr x).getLsbD i = (ifr.getLsbD i && !x.getLsbD i) := by
  simp only [ifrAfterWrite, BitVec.getLsbD_and, BitVec.getLsbD_not, BitVec.getLsbD_setWidth, hi, decide_true,
    Bool.true_and]

/-- The enables after an IER write (R172). -/
theorem getLsbD_ierAfterWrite (ier : Flags7) (x : Byte) {i : Nat} (hi : i < 7) :
    (ierAfterWrite ier x).getLsbD i =
      if x.getLsbD 7 = true then ier.getLsbD i || x.getLsbD i else ier.getLsbD i && !x.getLsbD i := by
  unfold ierAfterWrite
  split
  · simp only [BitVec.getLsbD_or, BitVec.getLsbD_setWidth, hi, decide_true, Bool.true_and]
  · exact getLsbD_ifrAfterWrite ier x hi

/-- Settles O18, by the bits of IFR after a write. -/
theorem viaIfrWriteClearsTheWrittenFlags : Obligations.ViaIfrWriteClearsTheWrittenFlags :=
  ⟨decodes_viaWrite .ifr, fun _ _ x v _ hat =>
    ⟨ifrAfterWrite v.ifr x, fun _ hi => getLsbD_ifrAfterWrite _ _ hi, onVia_reeval_eq hat rfl⟩⟩

/-- Settles O19, by the bits of IER after a write in both selects. -/
theorem viaIerWriteSetsOrClearsEnables : Obligations.ViaIerWriteSetsOrClearsEnables :=
  ⟨decodes_viaWrite .ier, fun _ _ x v _ hat =>
    ⟨ierAfterWrite v.ier x, fun _ hi => getLsbD_ierAfterWrite _ _ hi, onVia_reeval_eq hat rfl⟩⟩

/-! ### Pins -/

/-- Settles O21: each of the two operations stores the levels of its port. -/
theorem viaPinsAreDrivenFromOutside : Obligations.ViaPinsAreDrivenFromOutside :=
  ⟨fun _ _ _ hk => decode_packWord_at hk _ _ _, fun _ _ _ hk => decode_packWord_at hk _ _ _,
    fun _ _ _ _ _ hat => ⟨onVia_silent_eq hat rfl, onVia_silent_eq hat rfl⟩⟩

end Sys2Proof.Machine
end

section
/-! What the operations of the ACIA share (spec 41_acia_serial.md): the encodings of its register accesses, the status
byte an operation leaves, and the whole next state of an operation that only answers, changes nothing, only stores, or
re-evaluates. -/

namespace Sys2Proof.Machine
open Sys2Proof.Statements

/-! ### Encodings -/

/-- An ACIA register read sees the low two offset bits only (R72, R102). -/
theorem decodes_aciaRead (hi off : BitVec 2) :
    Decodes .acia 0x0 (hi ++ off) (fun d _ => aciaReadOp d (aciaRegAt off)) := by
  intro kinds d x hk
  refine (decode_packWord_at hk _ _ _).trans ?_
  exact congrArg (fun o => Except.ok (aciaReadOp d (aciaRegAt o))) (maskOffset2_append hi off)

/-- An ACIA register write sees the low two offset bits only (R72, R102). -/
theorem decodes_aciaWrite (hi off : BitVec 2) :
    Decodes .acia 0x1 (hi ++ off) (fun d x => aciaWriteOp d x (aciaRegAt off)) := by
  intro kinds d x hk
  refine (decode_packWord_at hk _ _ _).trans ?_
  exact congrArg (fun o => Except.ok (aciaWriteOp d x (aciaRegAt o))) (maskOffset2_append hi off)

/-! ### The status byte -/

theorem getLsbD_writeStatusBit (st : Byte) (k : Nat) (b : Bool) {i : Nat} (hi : i < 7) :
    (writeBit st k b).getLsbD i = (if i = k then some b else none).getD (st.getLsbD i) := by
  rw [getLsbD_writeBit]
  by_cases h : i = k
  · have hbyte : k < 8 := by omega
    simp [h, hbyte]
  · simp [h, Ne.symm h]

/-- Writing one status bit other than `IRQ` (R106). -/
theorem statusBecomes_writeBit (st : Byte) {k : Nat} (hk : k < 7) (b : Bool) :
    StatusBecomes st (writeBit st k b) (st.getLsbD 7) (fun i => if i = k then some b else none) := by
  refine ⟨?_, fun i hi => getLsbD_writeStatusBit st k b hi⟩
  have hirq : k ≠ 7 := by omega
  rw [getLsbD_writeBit, if_neg fun ⟨h, _⟩ => hirq h]

/-- Re-evaluation makes status bit `IRQ` the want and keeps the others (R323). -/
theorem statusBecomes_aciaMirrorIrq {st : Byte} {a : Acia} {change : Nat → Option Bool}
    (hbits : ∀ i < 7, a.status.getLsbD i = (change i).getD (st.getLsbD i)) :
    StatusBecomes st (aciaMirrorIrq a).status a.want change := by
  refine ⟨irq_aciaMirrorIrq a, fun i hi => ?_⟩
  have hirq : bitIRQ ≠ i := by
    rw [bitIRQ]
    omega
  rw [← hbits i hi, aciaMirrorIrq, getLsbD_writeBit, if_neg fun ⟨h, _⟩ => hirq h]

/-- The want reads two command bits and two status bits (R325). -/
theorem AciaRecord.want_eq (r : AciaRecord) : r.want = aciaWants r.command r.status := rfl

/-! ### Next states -/

variable {s t : State} {d : DevId} {a a' : Acia} {c c' : Bool} {f : Acia → Bool → Effect Acia}

/-- Slot `d` of a state whose slots are those of `s` with slot `d` written. -/
theorem slotAt_of_slots_eq_set {old new : Slot} (hat : s.slotAt d = some old)
    (ht : t.slots = s.slots.set d.toNat new) : t.slotAt d = some new := by
  rw [State.slotAt, ht]
  exact slotAt_commit_self s d new .nothing [] hat

/-- An ACIA read that only answers returns its byte and changes nothing else. -/
theorem onAcia_answer_eq (hat : s.slotAt d = some ⟨.acia a, c⟩) (value : Acia → Byte) :
    onAcia d s (fun a c => .answer a c (value a)) = .next { s with ret := .byte (value a) } :=
  (onAcia_eq hat _).trans (congrArg Host.Outcome.next (commit_same_byte hat))

/-- An operation that leaves device and contribution as they are changes nothing of the block. -/
theorem onAcia_unchanged_eq (hat : s.slotAt d = some ⟨.acia a, c⟩) (hf : f a c = .silent a c) :
    onAcia d s f = .next { s with ret := .nothing } := by
  rw [onAcia_eq hat, hf]
  refine congrArg Host.Outcome.next ((commit_same s d _ _ _ hat).trans ?_)
  rw [silent_events, List.append_nil, silent_ret]

/-- A silent operation writes its own slot and nothing else of the block. -/
theorem onAcia_silent_eq (hat : s.slotAt d = some ⟨.acia a, c⟩) (hf : f a c = .silent a' c') :
    onAcia d s f = .next { s with slots := s.slots.set d.toNat ⟨.acia a', c'⟩, ret := .nothing } := by
  rw [onAcia_eq hat, hf]
  exact congrArg Host.Outcome.next (commit_of_no_events s d _ _)

/-- An operation that re-evaluates writes its own slot, with the want as contribution and as status bit `IRQ`, and
emits its events (R323). -/
theorem onAcia_reeval_eq {r : Returned} {events : List Event} {want : Bool} {change : Nat → Option Bool}
    (hat : s.slotAt d = some ⟨.acia a, c⟩) (hf : f a c = aciaReeval a' r events) (hwant : a'.want = want)
    (hbits : ∀ i < 7, a'.status.getLsbD i = (change i).getD (a.status.getLsbD i)) :
    ∃ st : Byte, StatusBecomes a.status st want change ∧
      onAcia d s f = .next { s with
        slots := s.slots.set d.toNat ⟨.acia { a' with status := st }, want⟩
        output := s.output ++ events
        ret := r } := by
  subst hwant
  refine ⟨(aciaMirrorIrq a').status, statusBecomes_aciaMirrorIrq hbits, ?_⟩
  rw [onAcia_eq hat, hf]
  rfl

/-- The same for an operation without events. -/
theorem onAcia_reeval_quiet_eq {r : Returned} {want : Bool} {change : Nat → Option Bool}
    (hat : s.slotAt d = some ⟨.acia a, c⟩) (hf : f a c = aciaReeval a' r []) (hwant : a'.want = want)
    (hbits : ∀ i < 7, a'.status.getLsbD i = (change i).getD (a.status.getLsbD i)) :
    ∃ st : Byte, StatusBecomes a.status st want change ∧
      onAcia d s f = .next { s with
        slots := s.slots.set d.toNat ⟨.acia { a' with status := st }, want⟩
        ret := r } := by
  simpa only [List.append_nil] using onAcia_reeval_eq hat hf hwant hbits

end Sys2Proof.Machine
end

section
/-! Register accesses and host operations of the ACIA (spec 41_acia_serial.md R201 to R214, 43_signals_persistence.md
R310), and the tick count of a byte (R203). -/

namespace Sys2Proof.Machine
open Sys2Proof.Statements

variable {s : State} {d : DevId} {a : Acia} {c : Bool}

/-! ### The tick count of a byte (R203) -/

theorem ticksPerByte_of_baud_nonpos {cfg : Config} {r : AciaRecord} (h : r.baud ≤ 0) : ticksPerByte cfg r = 1 :=
  if_pos h

theorem ticksPerByte_of_baud_pos {cfg : Config} {r : AciaRecord} (h : 0 < r.baud) :
    ticksPerByte cfg r =
      min (cfg.maxTicks : Int) (max 1 ((cfg.clockHz : Int) / r.baud) * max 1 (framedBits r.frame : Int)) :=
  if_neg (not_le.mpr h)

theorem ticksPerByte_le_maxTicks {cfg : Config} (hmax : 1 ≤ cfg.maxTicks) (r : AciaRecord) :
    ticksPerByte cfg r ≤ cfg.maxTicks := by
  obtain hbaud | hbaud := le_or_gt r.baud 0
  · rw [ticksPerByte_of_baud_nonpos hbaud]
    exact_mod_cast hmax
  · rw [ticksPerByte_of_baud_pos hbaud]
    exact min_le_left _ _

/-- Settles O31, by the two branches of the count and the floor of clock by rate. -/
theorem ticksPerByteFormulaAndRange : Obligations.TicksPerByteFormulaAndRange := by
  refine fun cfg r => ⟨ticksPerByte_of_baud_nonpos, fun perBit framed hbaud hle hlt hframed => ?_,
    fun hmax => ⟨one_le_ticksPerByte hmax r, ticksPerByte_le_maxTicks hmax r⟩⟩
  have hbits : (framedBits r.frame : Int) = framed := by
    rw [hframed, framedBits]
    push_cast
    rfl
  have hfloor : (cfg.clockHz : Int) / r.baud = perBit :=
    (Int.ediv_eq_iff_of_pos hbaud).mpr ⟨hle, add_one_mul perBit r.baud ▸ hlt⟩
  rw [ticksPerByte_of_baud_pos hbaud, hfloor, hbits]

/-! ### Reads -/

/-- An ACIA read that only answers, from its row of the dispatch. -/
theorem aciaPlainRead_of_answer (off : BitVec 2) {value : Acia → Byte}
    (hexec : ∀ d s, exec (aciaReadOp d (aciaRegAt off)) s = onAcia d s fun a c => .answer a c (value a)) :
    AciaPlainRead off (fun d => aciaReadOp d (aciaRegAt off)) value :=
  ⟨fun hi => decodes_aciaRead hi off, fun s d _ _ hat => (hexec d s).trans (onAcia_answer_eq hat value)⟩

/-- Settles O26: each of the three reads answers the stored byte. -/
theorem aciaStoredByteReads : Obligations.AciaStoredByteReads :=
  ⟨aciaPlainRead_of_answer 1 fun _ _ => rfl, aciaPlainRead_of_answer 2 fun _ _ => rfl,
    aciaPlainRead_of_answer 3 fun _ _ => rfl⟩

theorem getLsbD_statusAfterDataRead (st : Byte) {i : Nat} (hi : i < 7) :
    (statusAfterDataRead st).getLsbD i =
      (if i = 0 ∨ i = 4 ∨ i = 5 ∨ i = 6 then some false else none).getD (st.getLsbD i) := by
  simp only [statusAfterDataRead, bitRDRF, bitPE, bitFE, bitOVRN, getLsbD_writeBit]
  grind

theorem want_dataRead (a : Acia) :
    ({ a with status := statusAfterDataRead a.status, rxHold := 0x00 } : Acia).want =
      (a.command.getLsbD 2 && a.status.getLsbD 1) := by
  have hrdrf : (statusAfterDataRead a.status).getLsbD 0 = false := rdrf_statusAfterDataRead a.status
  have htdre : (statusAfterDataRead a.status).getLsbD 1 = a.status.getLsbD 1 :=
    getLsbD_statusAfterDataRead a.status (by decide)
  rw [AciaRecord.want_eq, aciaWants, hrdrf, htdre, Bool.and_false, Bool.false_or]

/-- Settles O25, by the two branches of a data read. -/
theorem aciaDataReadConsumesThePendingByte : Obligations.AciaDataReadConsumesThePendingByte := by
  refine ⟨fun hi => decodes_aciaRead hi 0, fun s d a c hat => ⟨fun hfull => ?_, ?_⟩⟩
  · exact onAcia_reeval_quiet_eq hat (if_pos hfull) (want_dataRead a) fun i hi => getLsbD_statusAfterDataRead _ hi
  · exact execAciaRdData_of_rdrf_eq_false hat

/-! ### Writes -/

theorem want_aciaLoadTransmit (cfg : Config) (a : Acia) (x : Byte) :
    (aciaLoadTransmit cfg a x).want = (a.command.getLsbD 3 && a.status.getLsbD 0) := by
  have hrdrf : (writeBit a.status bitTDRE false).getLsbD 0 = a.status.getLsbD 0 := getLsbD_writeBit _ _ _ _
  have htdre : (writeBit a.status bitTDRE false).getLsbD 1 = false := getLsbD_writeBit _ _ _ _
  rw [AciaRecord.want_eq, aciaLoadTransmit, aciaWants, hrdrf, htdre, Bool.and_false, Bool.or_false]

theorem want_aciaLoadReceive (a : Acia) (x : Byte) :
    (aciaLoadReceive a x).want = (a.command.getLsbD 3 || (a.command.getLsbD 2 && a.status.getLsbD 1)) := by
  have hrdrf : (writeBit a.status bitRDRF true).getLsbD 0 = true := getLsbD_writeBit _ _ _ _
  have htdre : (writeBit a.status bitRDRF true).getLsbD 1 = a.status.getLsbD 1 := getLsbD_writeBit _ _ _ _
  rw [AciaRecord.want_eq, aciaLoadReceive, aciaWants, hrdrf, htdre, Bool.and_true]

/-- A data write with `TXEN` set takes the transmit path (R208). -/
theorem exec_aciaWrData_transmit (x : Byte) (hat : s.slotAt d = some ⟨.acia a, c⟩)
    (htxen : a.command.getLsbD 5 = true) :
    ∃ st : Byte,
      StatusBecomes a.status st (a.command.getLsbD 3 && a.status.getLsbD 0)
        (fun i => if i = 1 then some false else none) ∧
      exec (.aciaWrData d x) s = .next { s with
        slots := s.slots.set d.toNat
          ⟨.acia { a with status := st, txHold := x, txCount := ticksPerByte s.cfg a.toAciaRecord },
            a.command.getLsbD 3 && a.status.getLsbD 0⟩
        ret := .nothing } :=
  onAcia_reeval_quiet_eq hat (if_pos htxen) (want_aciaLoadTransmit s.cfg a x) fun _ hi =>
    getLsbD_writeStatusBit a.status bitTDRE false hi

/-- Settles O27, by the three branches of a data write. -/
theorem aciaDataWriteChoosesItsPath : Obligations.AciaDataWriteChoosesItsPath := by
  refine ⟨fun hi => decodes_aciaWrite hi 0, fun s d x a c hat =>
    ⟨exec_aciaWrData_transmit x hat, fun htxen hrxen => ?_, fun htxen hrxen => ?_⟩⟩
  · exact onAcia_reeval_quiet_eq hat ((if_neg (Bool.eq_false_iff.mp htxen)).trans (if_pos hrxen))
      (want_aciaLoadReceive a x) fun _ hi => getLsbD_writeStatusBit a.status bitRDRF true hi
  · exact onAcia_unchanged_eq hat
      ((if_neg (Bool.eq_false_iff.mp htxen)).trans (if_neg (Bool.eq_false_iff.mp hrxen)))

/-- Settles O28: the status byte is the old one under the want of the new command. -/
theorem aciaCommandWriteReevaluates : Obligations.AciaCommandWriteReevaluates :=
  ⟨fun hi => decodes_aciaWrite hi 1, fun _ _ x a _ hat =>
    onAcia_reeval_quiet_eq (a' := { a with command := x }) hat rfl rfl fun _ _ => rfl⟩

theorem toNat_lowBits (x : Byte) : (x.extractLsb' 0 4).toNat = x.toNat % 16 := by
  rw [BitVec.extractLsb'_toNat, Nat.shiftRight_zero]

theorem toNat_formatBits (x : Byte) : (x.extractLsb' 4 3).toNat = x.toNat / 16 % 8 := by
  rw [BitVec.extractLsb'_toNat, Nat.shiftRight_eq_div_pow]

/-- `BAUD_TABLE[v[3:0]]` is the rate of a control byte (R109). -/
theorem baudTable_getElem?_of_control (cfg : Config) (x : Byte) :
    cfg.baudTable[x.toNat % 16]? = some (baudOf cfg x) := by
  rw [← toNat_lowBits, Vector.getElem?_eq_getElem (x.extractLsb' 0 4).isLt]
  rfl

/-- `FORMAT_TABLE[v[6:4]]`, or the fallback for no entry, is the frame of a control byte (R110). -/
theorem formatTable_getElem?_of_control (cfg : Config) (x : Byte) :
    ∃ f, cfg.formatTable[x.toNat / 16 % 8]? = some f ∧ frameOf cfg x = f.getD ⟨8, 1, false, false⟩ := by
  rw [← toNat_formatBits, Vector.getElem?_eq_getElem (x.extractLsb' 4 3).isLt]
  exact ⟨_, rfl, rfl⟩

/-- Settles O29: the rate and the frame are those of the two table entries the control byte selects. -/
theorem aciaControlWriteDerivesRateAndFrame : Obligations.AciaControlWriteDerivesRateAndFrame := by
  refine ⟨fun hi => decodes_aciaWrite hi 2, fun s d x a c hat => ?_⟩
  obtain ⟨f, hformat, hframe⟩ := formatTable_getElem?_of_control s.cfg x
  refine ⟨baudOf s.cfg x, f, baudTable_getElem?_of_control s.cfg x, hformat, ?_⟩
  rw [← hframe]
  exact onAcia_silent_eq hat rfl

theorem decodeSink_boolData (d : DevId) (b : Bool) : decodeSink d (boolData b) = .ok (.aciaSink d b) := by
  cases b <;> rfl

/-- Settles O30: each of the two operations stores its field. -/
theorem aciaTestWriteAndSinkAttachment : Obligations.AciaTestWriteAndSinkAttachment :=
  ⟨fun hi => decodes_aciaWrite hi 3,
    fun _ _ _ hk => ⟨(decode_packWord_at hk _ _ _).trans (decodeSink_boolData _ true),
      (decode_packWord_at hk _ _ _).trans (decodeSink_boolData _ false)⟩,
    fun _ _ _ _ _ _ hat => ⟨onAcia_silent_eq hat rfl, onAcia_silent_eq hat rfl⟩⟩

/-! ### Bytes from the line -/

/-- Settles O33, by the three branches of a delivery. -/
theorem aciaDeliveryStoresOrOverruns : Obligations.AciaDeliveryStoresOrOverruns := by
  refine ⟨fun arg kinds d x hk => decode_packWord_at hk _ _ _, fun s d x a c hat =>
    ⟨fun hrxen => ?_, fun hrxen hfull => ?_, fun hrxen hempty => ?_⟩⟩
  · have hoff : (!a.rxen) = true := congrArg (!·) hrxen
    exact onAcia_unchanged_eq hat (if_pos hoff)
  · have hon : ¬ (!a.rxen) = true := Bool.eq_false_iff.mp (congrArg (!·) hrxen)
    exact ⟨_, statusBecomes_writeBit a.status (by decide) true,
      onAcia_silent_eq hat ((if_neg hon).trans (if_pos hfull))⟩
  · have hon : ¬ (!a.rxen) = true := Bool.eq_false_iff.mp (congrArg (!·) hrxen)
    exact onAcia_reeval_quiet_eq hat ((if_neg hon).trans (if_neg (Bool.eq_false_iff.mp hempty)))
      (want_aciaLoadReceive a x) fun _ hi => getLsbD_writeStatusBit a.status bitRDRF true hi

end Sys2Proof.Machine
end

section
/-! The tick of the ACIA (spec 41_acia_serial.md R212, R213): one tick in its three cases, and the ticks a transmitted
byte takes from the data write to the sink (70_reset_and_hazards.md R395). -/

namespace Sys2Proof.Machine
open Sys2Proof.Statements

variable {s : State} {d : DevId} {a : Acia} {c : Bool}

/-! ### One tick -/

theorem want_aciaDelivered (a : Acia) :
    (aciaDelivered a).want = ((a.command.getLsbD 3 && a.status.getLsbD 0) || a.command.getLsbD 2) := by
  have hrdrf : (writeBit a.status bitTDRE true).getLsbD 0 = a.status.getLsbD 0 := getLsbD_writeBit _ _ _ _
  have htdre : (writeBit a.status bitTDRE true).getLsbD 1 = true := getLsbD_writeBit _ _ _ _
  rw [AciaRecord.want_eq, aciaDelivered, aciaWants, hrdrf, htdre, Bool.and_true]

/-- A tick with a countdown of more than 1 takes 1 from it (R213). -/
theorem exec_aciaStep_countdown (hat : s.slotAt d = some ⟨.acia a, c⟩) (hpend : a.status.getLsbD 1 = false)
    (hlate : 0 < a.txCount - 1) :
    exec (.aciaStep d) s = .next { s with
      slots := s.slots.set d.toNat ⟨.acia { a with txCount := a.txCount - 1 }, c⟩
      ret := .nothing } :=
  onAcia_silent_eq hat ((if_neg (Bool.eq_false_iff.mp hpend)).trans (if_neg (not_le.mpr hlate)))

/-- A tick with a countdown of 1 or less hands the byte to the sink (R212, R213). -/
theorem exec_aciaStep_delivers (hat : s.slotAt d = some ⟨.acia a, c⟩) (hpend : a.status.getLsbD 1 = false)
    (hlast : a.txCount - 1 ≤ 0) :
    ∃ st : Byte,
      StatusBecomes a.status st ((a.command.getLsbD 3 && a.status.getLsbD 0) || a.command.getLsbD 2)
        (fun i => if i = 1 then some true else none) ∧
      exec (.aciaStep d) s = .next { s with
        slots := s.slots.set d.toNat
          ⟨.acia { a with status := st, txHold := 0, txCount := a.txCount - 1 },
            (a.command.getLsbD 3 && a.status.getLsbD 0) || a.command.getLsbD 2⟩
        output := s.output ++ (if a.sinkAttached then [.tx d a.txHold] else [])
        ret := .nothing } :=
  onAcia_reeval_eq hat ((if_neg (Bool.eq_false_iff.mp hpend)).trans (if_pos hlast)) (want_aciaDelivered a)
    fun _ hi => getLsbD_writeStatusBit a.status bitTDRE true hi

/-- Settles O32, by the three branches of a tick. -/
theorem aciaStepCountsDownAndDelivers : Obligations.AciaStepCountsDownAndDelivers :=
  ⟨fun _ _ _ _ hk => decode_packWord_at hk _ _ _, fun _ _ _ _ hat =>
    ⟨fun hidle => onAcia_unchanged_eq hat (if_pos hidle), exec_aciaStep_countdown hat, exec_aciaStep_delivers hat⟩⟩

/-! ### The ticks of a byte -/

/-- A run of one operation, performed once more. -/
theorem runOps_replicate_succ {i : Instr} {n : Nat} {s t u : State}
    (hrun : runOps (List.replicate n i) s = .next t) (hlast : exec i t = .next u) :
    runOps (List.replicate (n + 1) i) s = .next u := by
  rw [List.replicate_succ', runOps_append hrun, runOps_cons hlast, runOps_nil]

/-- Before its last tick a pending byte only counts down: after `n` ticks the device differs in the countdown alone and
nothing was output. -/
theorem runOps_aciaStep_countdown (hat : s.slotAt d = some ⟨.acia a, c⟩) (hpend : a.status.getLsbD 1 = false) {n : Nat}
    (hn : (n : Int) < a.txCount) :
    ∃ t, runOps (List.replicate n (.aciaStep d)) s = .next t ∧
      t.slotAt d = some ⟨.acia { a with txCount := a.txCount - n }, c⟩ ∧ t.output = s.output := by
  induction n with
  | zero =>
    refine ⟨s, rfl, ?_, rfl⟩
    rwa [Nat.cast_zero, sub_zero]
  | succ n ih =>
    rw [Nat.cast_succ] at hn ⊢
    obtain ⟨t, hrun, ht, hout⟩ := ih (by omega)
    have htick := exec_aciaStep_countdown ht hpend (show 0 < a.txCount - n - 1 by omega)
    rw [← sub_sub]
    exact ⟨_, runOps_replicate_succ hrun htick, slotAt_of_slots_eq_set ht rfl, hout⟩

/-- A pending byte reaches the sink on the tick its countdown names, which leaves the transmitter empty. -/
theorem runOps_aciaStep_delivers (hat : s.slotAt d = some ⟨.acia a, c⟩) (hpend : a.status.getLsbD 1 = false)
    (hcount : 1 ≤ a.txCount) :
    ∃ t a' c', runOps (List.replicate a.txCount.toNat (.aciaStep d)) s = .next t ∧
      t.slotAt d = some ⟨.acia a', c'⟩ ∧ a'.status.getLsbD 1 = true ∧ a'.txHold = 0 ∧ a'.txCount = 0 ∧
      t.output = s.output ++ (if a.sinkAttached then [.tx d a.txHold] else []) := by
  obtain ⟨n, hn⟩ : ∃ n, a.txCount.toNat = n + 1 := Nat.exists_eq_succ_of_ne_zero (by omega)
  have hlast : a.txCount - n - 1 = 0 := by omega
  obtain ⟨t, hrun, ht, hout⟩ := runOps_aciaStep_countdown hat hpend (n := n) (by omega)
  obtain ⟨st, ⟨-, hbits⟩, htick⟩ := exec_aciaStep_delivers ht hpend hlast.le
  rw [hn, ← hout]
  exact ⟨_, _, _, runOps_replicate_succ hrun htick, slotAt_of_slots_eq_set ht rfl, hbits 1 (by decide), rfl, hlast, rfl⟩

/-- A data write on the transmit path leaves its byte pending with the countdown of R203, and outputs nothing (R208). -/
theorem exec_aciaWrData_pending (x : Byte) (hat : s.slotAt d = some ⟨.acia a, c⟩)
    (htxen : a.command.getLsbD 5 = true) :
    ∃ t a' c', exec (.aciaWrData d x) s = .next t ∧ t.slotAt d = some ⟨.acia a', c'⟩ ∧
      a'.status.getLsbD 1 = false ∧ a'.txHold = x ∧ a'.txCount = ticksPerByte s.cfg a.toAciaRecord ∧
      a'.sinkAttached = a.sinkAttached ∧ t.output = s.output := by
  obtain ⟨st, ⟨-, hbits⟩, hwrite⟩ := exec_aciaWrData_transmit x hat htxen
  exact ⟨_, _, _, hwrite, slotAt_of_slots_eq_set hat rfl, hbits 1 (by decide), rfl, rfl, rfl, rfl⟩

/-- Settles O34: the data write starts the countdown of R203, and the ticks run it down. -/
theorem aciaByteDeliveredOnTheLastTick : Obligations.AciaByteDeliveredOnTheLastTick := by
  intro s d x a c hmax hat htxen
  obtain ⟨s₁, a₁, c₁, hwrite, hat₁, hpend, rfl, hcount, hsink, hout₁⟩ := exec_aciaWrData_pending x hat htxen
  simp only [runOps_cons hwrite, ← hcount, ← hsink, ← hout₁]
  constructor
  · intro n hn
    obtain ⟨t, hrun, ht, hout⟩ := runOps_aciaStep_countdown hat₁ hpend hn
    exact ⟨t, _, _, hrun, ht, hpend, rfl, rfl, hout⟩
  · have hpos : 1 ≤ a₁.txCount := hcount ▸ one_le_ticksPerByte hmax a.toAciaRecord
    exact runOps_aciaStep_delivers hat₁ hpend hpos

end Sys2Proof.Machine
end

section
/-! Port accesses, control writes, line setters and tick of the PIA (spec 42_pia_parallel.md R252 to R264, less the
control reads): each is one of the shared operations at its encoding. -/

namespace Sys2Proof.Machine
open Sys2Proof.Statements

/-! ### Encodings -/

/-- A PIA register write sees the low two offset bits only (R72, R103). -/
theorem decodes_piaWrite (hi off : BitVec 2) :
    Decodes .pia 0x1 (hi ++ off) (fun d x => piaWriteOp d x (piaRegAt off)) := by
  intro kinds d x hk
  refine (decode_packWord_at hk _ _ _).trans ?_
  exact congrArg (fun o => Except.ok (piaWriteOp d x (piaRegAt o))) (maskOffset2_append hi off)

/-- At a PIA the canonical word of a PIA operation decodes to it. -/
theorem decode_encode_at_pia {kinds : List Kind} {i : Instr} (hk : kinds[i.dev.toNat]? = some .pia)
    (hformat : i.format = .pia) : decode kinds (encode i) = .ok i :=
  decodeEncodeAgree kinds i (wellFormed_iff.mpr ⟨.pia, hk, hformat ▸ pia_admits_iff.mpr rfl⟩)

/-! ### Next states -/

variable {s : State} {d : DevId} {p p' : Pia} {c c' : Bool} {f : Pia → Bool → Effect Pia}

/-- A PIA operation that leaves device and contribution as they are changes nothing of the block. -/
theorem onPia_unchanged_eq (hat : s.slotAt d = some ⟨.pia p, c⟩) (hf : f p c = .silent p c) :
    onPia d s f = .next { s with ret := .nothing } := by
  rw [onPia_eq hat, hf]
  refine congrArg Host.Outcome.next ((commit_same s d _ _ _ hat).trans ?_)
  rw [silent_events, List.append_nil, silent_ret]

/-- A silent operation writes its own slot and nothing else of the block. -/
theorem onPia_silent_eq (hat : s.slotAt d = some ⟨.pia p, c⟩) (hf : f p c = .silent p' c') :
    onPia d s f = .next { s with slots := s.slots.set d.toNat ⟨.pia p', c'⟩, ret := .nothing } := by
  rw [onPia_eq hat, hf]
  exact congrArg Host.Outcome.next (commit_of_no_events s d _ _)

/-- An operation that re-evaluates writes its own slot, with the want as the contribution (R323). -/
theorem onPia_reeval_eq {want : Bool} (hat : s.slotAt d = some ⟨.pia p, c⟩) (hf : f p c = piaReeval p')
    (hwant : p'.want = want) :
    onPia d s f = .next { s with slots := s.slots.set d.toNat ⟨.pia p', want⟩, ret := .nothing } := by
  subst hwant
  rw [onPia_eq hat, hf]
  exact congrArg Host.Outcome.next (commit_of_no_events s d _ _)

/-! ### Ports -/

/-- A PIA read that only answers, from its row of the dispatch. -/
theorem piaPlainRead_of_answer (off : BitVec 2) {value : Pia → Byte}
    (hexec : ∀ d s, exec (piaReadOp d (piaRegAt off)) s = onPia d s fun p c => .answer p c (value p)) :
    PiaPlainRead off (fun d => piaReadOp d (piaRegAt off)) value :=
  ⟨fun hi => decodes_piaRead hi off, fun s d _ _ hat => (hexec d s).trans (onPia_answer_eq hat value)⟩

/-- Settles O36: a port read answers the stored byte; a port write stores byte and handshake output, silently. -/
theorem piaPortsAndHandshake : Obligations.PiaPortsAndHandshake :=
  ⟨piaPlainRead_of_answer 0 fun _ _ => rfl, piaPlainRead_of_answer 1 fun _ _ => rfl,
    fun hi => decodes_piaWrite hi 0, fun hi => decodes_piaWrite hi 1,
    fun _ _ _ _ _ hat => ⟨onPia_silent_eq hat rfl, onPia_silent_eq hat rfl⟩⟩

/-! ### Control registers -/

/-- Settles O38: with its own flag cleared, what a control write re-evaluates is the flag of the other side. -/
theorem piaControlWritesClearTheirFlag : Obligations.PiaControlWritesClearTheirFlag := by
  refine ⟨fun hi => decodes_piaWrite hi 2, fun hi => decodes_piaWrite hi 3, fun s d x p c hat => ?_⟩
  rw [← directionOf_eq x]
  exact ⟨onPia_reeval_eq hat rfl (Bool.or_false p.irqa), onPia_reeval_eq hat rfl (Bool.false_or p.irqb)⟩

/-! ### Lines -/

/-- Settles O39, by the two branches of each line setter: the stored level, and the other one. -/
theorem piaLineChangesSetEnabledFlags : Obligations.PiaLineChangesSetEnabledFlags := by
  refine ⟨fun kinds d hk => ?_, fun s d p c hat => ⟨?_, ?_⟩⟩
  · have hword (i : Instr) (hdev : i.dev = d) (hformat : i.format = .pia) : decode kinds (encode i) = .ok i :=
      decode_encode_at_pia (hdev ▸ hk) hformat
    exact ⟨hword (.piaLineCa1 d true) rfl rfl, hword (.piaLineCa1 d false) rfl rfl,
      hword (.piaLineCa2 d true) rfl rfl, hword (.piaLineCa2 d false) rfl rfl,
      hword (.piaLineCb1 d true) rfl rfl, hword (.piaLineCb1 d false) rfl rfl,
      hword (.piaLineCb2 d true) rfl rfl, hword (.piaLineCb2 d false) rfl rfl⟩
  · exact ⟨onPia_unchanged_eq hat (if_pos rfl), onPia_unchanged_eq hat (if_pos rfl),
      onPia_unchanged_eq hat (if_pos rfl), onPia_unchanged_eq hat (if_pos rfl)⟩
  · refine ⟨?_, ?_, ?_, ?_⟩ <;> rintro _ rfl
    all_goals exact onPia_reeval_eq hat (if_neg (Bool.not_ne_self _)) rfl

/-! ### The tick -/

/-- Settles O40: the tick is accepted whatever its argument, and leaves device and contribution as they are. -/
theorem piaStepChangesNothing : Obligations.PiaStepChangesNothing :=
  ⟨fun _ _ _ _ hk => decode_packWord_at hk _ _ _, fun _ _ _ _ hat => onPia_unchanged_eq hat rfl⟩

end Sys2Proof.Machine
end

section
/-! Signals (spec 43_signals_persistence.md R290 to R294): one event, a forced contribution, or nothing. -/

namespace Sys2Proof.Machine
open Sys2Proof.Statements

variable {s : State} {d : DevId} {slot : Slot}

/-! ### Next states -/

/-- Committing a slot as it is, without an event, changes only what was returned. -/
theorem commit_same_quiet (hat : s.slotAt d = some slot) (ret : Returned) :
    s.commit d slot ret [] = { s with ret := ret } := by
  rw [commit_same s d slot ret [] hat, List.append_nil]

/-- A VIA operation that leaves device and contribution as they are changes nothing of the block. -/
theorem onVia_unchanged_eq {v : Via} {c : Bool} {f : Via → Bool → Effect Via}
    (hat : s.slotAt d = some ⟨.via v, c⟩) (hf : f v c = .silent v c) :
    onVia d s f = .next { s with ret := .nothing } := by
  rw [onVia_eq hat, hf]
  exact congrArg Host.Outcome.next (commit_same_quiet hat .nothing)

/-- One contribution asserts the shared line (R322). -/
theorem irqLine_of_contrib (hat : s.slotAt d = some slot) (hc : slot.contrib = true) : s.irqLine = true :=
  List.any_eq_true.mpr ⟨slot, mem_of_slotAt hat, hc⟩

/-! ### Signals -/

/-- An unrecognised signal is accepted by a device of any kind (R290). -/
theorem decodes_anySigOther (k : Kind) : Decodes k 0x3 0xF (fun d _ => .anySigOther d) :=
  fun _ _ _ hk => decode_packWord_at hk _ _ _

theorem exec_anySigOther (hat : s.slotAt d = some slot) : exec (.anySigOther d) s = .next { s with ret := .nothing } :=
  (onAny_eq hat _).trans (congrArg Host.Outcome.next (commit_same_quiet hat .nothing))

/-- `SIG NMI` appends its event to the output (R292). -/
theorem exec_aciaSigNmi {a : Acia} {c : Bool} (hat : s.slotAt d = some ⟨.acia a, c⟩) :
    exec (.aciaSigNmi d) s = .next { s with output := s.output ++ [.nmi d], ret := .nothing } :=
  (onAcia_eq hat _).trans (congrArg Host.Outcome.next (commit_same s d _ .nothing [.nmi d] hat))

/-- Settles O35: the NMI is an event on an unchanged slot; the IRQ is a silent write of the contribution, which the
line is the OR of. -/
theorem aciaSignalsReachTheLines : Obligations.AciaSignalsReachTheLines := by
  refine ⟨fun _ _ _ hk => decode_packWord_at hk _ _ _, fun _ _ _ hk => decode_packWord_at hk _ _ _,
    fun s d a c hat => ⟨exec_aciaSigNmi hat, _, onAcia_silent_eq hat rfl, rfl, ?_⟩⟩
  exact irqLine_of_contrib (slotAt_of_slots_eq_set hat rfl) rfl

/-- Settles O41: each ignored signal is accepted, and leaves device and contribution as they are. -/
theorem ignoredSignalsChangeNothing : Obligations.IgnoredSignalsChangeNothing := by
  refine ⟨⟨decodes_anySigOther, ?_, ?_, ?_, ?_⟩, fun _ _ _ hat => exec_anySigOther hat, ?_, ?_⟩
  iterate 4 exact fun _ _ _ hk => decode_packWord_at hk _ _ _
  · exact fun _ _ _ _ hat => ⟨onVia_unchanged_eq hat rfl, onVia_unchanged_eq hat rfl⟩
  · exact fun _ _ _ _ hat => ⟨onPia_unchanged_eq hat rfl, onPia_unchanged_eq hat rfl⟩

end Sys2Proof.Machine
end

section
/-! Save and load (spec 43_signals_persistence.md R300 to R307): what a save returns, what a load restores, and that a
load of what was just saved restores the device as it is. -/

namespace Sys2Proof.Machine
open Sys2Proof.Statements

variable {s : State} {d : DevId} {n : Byte}

/-! ### Save -/

/-- A save is accepted by a device of any kind, whatever its argument. -/
theorem decodes_anySave (k : Kind) (arg : BitVec 4) : Decodes k 0x7 arg (fun d _ => .anySave d) :=
  fun _ _ _ hk => decode_packWord_at hk _ _ _

/-- A save returns its device's record and appends it to the record table (R300). -/
theorem exec_anySave {slot : Slot} (hat : s.slotAt d = some slot) :
    exec (.anySave d) s =
      .next { s with records := s.records ++ [slot.dev.record], ret := .record slot.dev.record } := by
  refine (onAny_eq hat _).trans ?_
  rw [commit_same_quiet hat]

/-- Settles O42, by the whole next state of a save and the record of each kind. -/
theorem saveReturnsTheRecord : Obligations.SaveReturnsTheRecord :=
  ⟨decodes_anySave, fun _ _ _ hat => ⟨_, _, exec_anySave hat, rfl, rfl, rfl, rfl, rfl, rfl,
    fun _ hvia => congrArg Device.record hvia, fun _ hacia => congrArg Device.record hacia,
    fun _ hpia => congrArg Device.record hpia⟩⟩

/-! ### Load -/

/-- A load is accepted by a device of any kind, as the load of that kind. -/
theorem decodes_load (k : Kind) (arg : BitVec 4) : Decodes k 0x8 arg (decodeLoad k) :=
  fun _ _ _ hk => decode_packWord_at hk _ _ _

/-- A VIA takes the record's registers, keeps its pin levels and re-evaluates (R304). -/
theorem exec_viaLoad {v : Via} {c : Bool} {r : ViaRecord} (hat : s.slotAt d = some ⟨.via v, c⟩)
    (hrec : s.records[n.toNat]? = some (.via r)) :
    exec (.viaLoad d n) s = .next { s with
      slots := s.slots.set d.toNat ⟨.via { v with toViaRecord := r }, r.want⟩
      ret := .nothing } := by
  change execViaLoad d n s = _
  rw [execViaLoad, hrec]
  exact onVia_reeval_eq hat rfl

/-- An ACIA takes the record's registers, keeps its sink and re-evaluates, which rewrites status bit `IRQ` (R305). -/
theorem exec_aciaLoad {a : Acia} {c : Bool} {r : AciaRecord} (hat : s.slotAt d = some ⟨.acia a, c⟩)
    (hrec : s.records[n.toNat]? = some (.acia r)) :
    exec (.aciaLoad d n) s = .next { s with
      slots := s.slots.set d.toNat ⟨.acia (aciaMirrorIrq { a with toAciaRecord := r }), r.want⟩
      ret := .nothing } := by
  change execAciaLoad d n s = _
  rw [execAciaLoad, hrec]
  refine (onAcia_eq hat _).trans ?_
  exact congrArg Host.Outcome.next (commit_of_no_events s d _ _)

/-- A PIA becomes the record and re-evaluates (R306). -/
theorem exec_piaLoad {p r : Pia} {c : Bool} (hat : s.slotAt d = some ⟨.pia p, c⟩)
    (hrec : s.records[n.toNat]? = some (.pia r)) :
    exec (.piaLoad d n) s = .next { s with slots := s.slots.set d.toNat ⟨.pia r, r.want⟩, ret := .nothing } := by
  change execPiaLoad d n s = _
  rw [execPiaLoad, hrec]
  exact onPia_reeval_eq hat rfl rfl

/-- Of a loaded status byte re-evaluation keeps all but bit `IRQ`, which becomes the want of the record (R305). -/
theorem statusBecomes_of_load (a : Acia) (r : AciaRecord) :
    StatusBecomes r.status (aciaMirrorIrq { a with toAciaRecord := r }).status (aciaWants r.command r.status)
      (fun _ => none) :=
  statusBecomes_aciaMirrorIrq (a := { a with toAciaRecord := r }) fun _ _ => rfl

/-- Settles O43, by the load of each kind; an ACIA's status byte is not the stored one but the re-evaluated one. -/
theorem loadsRestoreAndReevaluate : Obligations.LoadsRestoreAndReevaluate :=
  ⟨fun arg => ⟨decodes_load .via arg, decodes_load .acia arg, decodes_load .pia arg⟩,
    fun _ _ _ _ _ _ hat hrec => exec_viaLoad hat hrec,
    fun _ _ _ a _ r hat hrec => ⟨_, statusBecomes_of_load a r, exec_aciaLoad hat hrec⟩,
    fun _ _ _ _ _ _ hat hrec => exec_piaLoad hat hrec⟩

/-! ### Save, then load (R307) -/

/-- Writing a bit with what it holds changes no bit. -/
@[simp] theorem writeBit_getLsbD_self {w : Nat} (x : BitVec w) (i : Nat) : writeBit x i (x.getLsbD i) = x := by
  refine BitVec.eq_of_getLsbD_eq fun j _ => ?_
  rw [getLsbD_writeBit]
  split
  · rename_i hbit
    rw [hbit.1]
  · rfl

/-- Re-evaluation changes nothing of an ACIA whose status bit `IRQ` is its want (R323). -/
theorem aciaMirrorIrq_of_irq_eq_want {a : Acia} (hirq : a.irq = a.want) : aciaMirrorIrq a = a := by
  have hstatus : writeBit a.status bitIRQ a.irq = a.status := writeBit_getLsbD_self a.status bitIRQ
  rw [aciaMirrorIrq, ← hirq, hstatus]

/-- A load of a device's own record leaves the device as it is and makes its contribution the want: the record, with
what a load keeps, is the whole device, and an ACIA's status bit `IRQ` is its want already (R328). -/
theorem exec_load_of_own_record {dev : Device} {c : Bool} (hat : s.slotAt d = some ⟨dev, c⟩)
    (hmirrors : dev.MirrorsWant) (hrec : s.records[n.toNat]? = some dev.record) :
    exec (decodeLoad dev.kind d n) s = .next { s with
      slots := s.slots.set d.toNat ⟨dev, dev.want⟩
      ret := .nothing } := by
  cases dev with
  | via v => exact exec_viaLoad hat hrec
  | acia a =>
    have hload := exec_aciaLoad hat hrec
    rwa [aciaMirrorIrq_of_irq_eq_want hmirrors] at hload
  | pia p => exact exec_piaLoad hat hrec

/-- The place after a list, if a byte can name it, is where an appended element stands. -/
theorem getElem?_concat_ofNat_length {α : Type} {l : List α} (hlen : l.length < 256) (x : α) :
    (l ++ [x])[(BitVec.ofNat 8 l.length).toNat]? = some x := by
  have hindex : (BitVec.ofNat 8 l.length).toNat = l.length := (BitVec.toNat_ofNat _ _).trans (Nat.mod_eq_of_lt hlen)
  rw [hindex, List.getElem?_concat_length]

/-- Settles O45: the save appends the device's own record, and the load of that record restores the device as it is. -/
theorem saveThenLoadRoundTrip : Obligations.SaveThenLoadRoundTrip := by
  intro s d slot hat hhonest hroom
  obtain ⟨-, hmirrors⟩ := hhonest slot (mem_of_slotAt hat)
  have hrec := getElem?_concat_ofNat_length hroom slot.dev.record
  refine ⟨_, _, exec_anySave hat, exec_load_of_own_record hat hmirrors hrec, rfl, rfl, fun hwant => ?_⟩
  have hsame : s.slots.set d.toNat slot = s.slots := by
    rw [← commit_slots s d slot .nothing [], commit_same_quiet hat]
  rw [← hwant]
  exact hsame

end Sys2Proof.Machine
end

section
/-! What an operation does to the slot of its own device, said once for every operation (spec 60_exceptions.md R323,
R327): it keeps what the IRQ line depends on, or re-evaluates, or forces the contribution, or only emits an `Nmi`. -/

namespace Sys2Proof.Machine
open Sys2Proof.Statements

/-! ### Devices and their flags -/

/-- The interrupt flags of a VIA; the other kinds have none. -/
def Device.flags : Device → Flags7
  | .via v => v.ifr
  | .acia _ => 0
  | .pia _ => 0

/-- Every flag of `new` that is set is set in `old`. -/
def Device.SetsNoFlag (old new : Device) : Prop :=
  ∀ k < 7, new.flags.getLsbD k = true → old.flags.getLsbD k = true

/-- `new` is a device of `old`'s kind with its want, its flags, and the tie of its status IRQ bit if `old` has it. -/
structure Device.SameInterrupts (old new : Device) : Prop where
  kind : new.kind = old.kind
  want : new.want = old.want
  mirrors : old.MirrorsWant → new.MirrorsWant
  flags : new.flags = old.flags

theorem Device.SameInterrupts.refl (dev : Device) : dev.SameInterrupts dev := ⟨rfl, rfl, id, rfl⟩

theorem Device.SameInterrupts.setsNoFlag {old new : Device} (h : old.SameInterrupts new) : old.SetsNoFlag new :=
  fun _ _ hset => h.flags ▸ hset

/-- Writing a status bit the want and the status IRQ bit do not stand in, as an overrun does (R214). -/
theorem sameInterrupts_overrun (a : Acia) :
    (Device.acia a).SameInterrupts (.acia { a with status := writeBit a.status bitOVRN true }) := by
  have hbit (i : Nat) (hi : 5 ≠ i) : (writeBit a.status bitOVRN true).getLsbD i = a.status.getLsbD i := by
    rw [getLsbD_writeBit, if_neg fun ⟨h, _⟩ => hi h]
  have hwant : ({ a with status := writeBit a.status bitOVRN true } : Acia).want = a.want := by
    simp only [AciaRecord.want_eq, aciaWants, hbit 0 (by decide), hbit 1 (by decide)]
  exact ⟨rfl, hwant, fun hirq => (hbit 7 (by decide)).trans (hirq.trans hwant.symm), rfl⟩

/-- The reset values of every kind want no interrupt (R371). -/
theorem want_deviceReset (dev : Device) : dev.reset.want = false := by
  cases dev with
  | via v => exact (by decide : viaResetRecord.want = false)
  | acia a => exact (by decide : aciaResetRecord.want = false)
  | pia p => exact (by decide : piaReset.want = false)

theorem mirrorsWant_deviceReset (dev : Device) : dev.reset.MirrorsWant := by
  cases dev with
  | via v => trivial
  | acia a => exact (by decide : aciaResetRecord.irq = aciaResetRecord.want)
  | pia p => trivial

theorem flags_deviceReset (dev : Device) : dev.reset.flags = 0 := by
  cases dev <;> rfl

theorem setsNoFlag_deviceReset (dev : Device) : dev.SetsNoFlag dev.reset := by
  intro k _ hset
  simp [flags_deviceReset] at hset

/-- A flag set after one was cleared was set before. -/
theorem getLsbD_of_writeBit_false {w : Nat} {x : BitVec w} {j k : Nat}
    (h : (writeBit x j false).getLsbD k = true) : x.getLsbD k = true := by
  rw [getLsbD_writeBit] at h
  split at h
  · cases h
  · exact h

theorem getLsbD_of_ifrAfterWrite {ifr : Flags7} {x : Byte} {k : Nat} (hk : k < 7)
    (h : (ifrAfterWrite ifr x).getLsbD k = true) : ifr.getLsbD k = true := by
  rw [getLsbD_ifrAfterWrite _ _ hk] at h
  exact Bool.and_elim_left h

theorem emitTx_cases (d : DevId) (attached : Bool) (b : Byte) :
    emitTx d attached b = [] ∨ emitTx d attached b = [.tx d b] := by
  cases attached
  · exact .inl rfl
  · exact .inr rfl

/-! ### Slots -/

/-- R328 without the exception of a forced contribution. -/
def Slot.Agrees (slot : Slot) : Prop := slot.contrib = slot.dev.want ∧ slot.dev.MirrorsWant

theorem Slot.Agrees.honest {slot : Slot} (h : slot.Agrees) : slot.Honest := ⟨.inl h.1, h.2⟩

/-- The points of the table of R327 at which a timer mode re-evaluates: in `quirk` mode a VIA tick does not (R381). -/
def ReevaluatesIn (mode : TimerMode) : Instr → Prop
  | .viaStep _ => mode = .wrap
  | i => MayWriteAggregator i

theorem mayWriteAggregator_of_reevaluatesIn {mode : TimerMode} {i : Instr} (h : ReevaluatesIn mode i) :
    MayWriteAggregator i := by
  unfold ReevaluatesIn at h
  split at h
  · trivial
  · exact h

/-- The ways operation `i` can change the slot of its device, with the events it emits: nothing the IRQ line depends on
changes; it re-evaluates, with a flag newly set in `quirk` mode only if it is a load; `SIG IRQ` forces the
contribution of an ACIA; `SIG NMI` emits its event on an unchanged slot. -/
inductive SlotChange (mode : TimerMode) (i : Instr) (old new : Slot) (events : List Event) : Prop
  | kept (dev : old.dev.SameInterrupts new.dev) (contrib : new.contrib = old.contrib) (quiet : events = [])
  | reevaluated (point : ReevaluatesIn mode i) (agrees : new.Agrees)
      (flags : mode = .quirk → i.isLoad = false → old.dev.SetsNoFlag new.dev)
      (delivery : events = [] ∨ ∃ d b, i = .aciaStep d ∧ events = [.tx d b])
  | forced (signal : ∃ d, i = .aciaSigIrq d) (kind : old.dev.kind = .acia) (new_eq : new = { old with contrib := true })
      (quiet : events = [])
  | nmi (signal : ∃ d, i = .aciaSigNmi d ∧ events = [.nmi d]) (new_eq : new = old)

section
variable {mode : TimerMode} {i : Instr} {old new : Slot} {events : List Event} {c : Bool}

theorem SlotChange.unchanged (slot : Slot) : SlotChange mode i slot slot [] :=
  .kept (.refl slot.dev) rfl rfl

theorem SlotChange.ofViaReeval {v v' : Via} (hpoint : ReevaluatesIn mode i)
    (hflags : mode = .quirk → i.isLoad = false → ∀ k < 7, v'.ifr.getLsbD k = true → v.ifr.getLsbD k = true) :
    SlotChange mode i ⟨.via v, c⟩ ⟨.via v', v'.want⟩ [] :=
  .reevaluated hpoint ⟨rfl, trivial⟩ hflags (.inl rfl)

theorem SlotChange.ofAciaReeval {a a' : Acia} (hpoint : ReevaluatesIn mode i)
    (hevents : events = [] ∨ ∃ d b, i = .aciaStep d ∧ events = [.tx d b]) :
    SlotChange mode i ⟨.acia a, c⟩ ⟨.acia (aciaMirrorIrq a'), a'.want⟩ events :=
  have hwant : a'.want = (aciaMirrorIrq a').want := (want_aciaMirrorIrq a').symm
  .reevaluated hpoint ⟨hwant, (irq_aciaMirrorIrq a').trans hwant⟩ (fun _ _ _ _ => id) hevents

theorem SlotChange.ofPiaReeval {p p' : Pia} (hpoint : ReevaluatesIn mode i) :
    SlotChange mode i ⟨.pia p, c⟩ ⟨.pia p', p'.want⟩ [] :=
  .reevaluated hpoint ⟨rfl, trivial⟩ (fun _ _ _ _ => id) (.inl rfl)

/-- A VIA tick re-evaluates when a counter wraps, which sets a flag and is possible in `wrap` mode only (R141, R175). -/
theorem SlotChange.ofTickVia (d : DevId) (v : Via) :
    SlotChange mode (.viaStep d) ⟨.via v, c⟩ ⟨.via (tickVia mode v c).1, (tickVia mode v c).2⟩ [] := by
  cases mode with
  | quirk =>
    rw [tickVia_quirk]
    exact .kept ⟨rfl, rfl, id, rfl⟩ rfl rfl
  | wrap =>
    by_cases hwraps : v.t1c = 0 ∨ v.t2c = 0
    · rw [tickVia_wrap, if_pos hwraps]
      exact .ofViaReeval rfl fun hmode => nomatch hmode
    · have hflags : v.flagsAfterTick = v.ifr := by
        obtain ⟨h1, h2⟩ := not_or.mp hwraps
        simp only [ViaRecord.flagsAfterTick, flagsAfterWrapTick, h1, h2, if_false]
      rw [tickVia_wrap, if_neg hwraps, hflags]
      exact .kept ⟨rfl, rfl, id, rfl⟩ rfl rfl

theorem SlotChange.agrees (h : SlotChange mode i old new events) (hi : ∀ d, i ≠ .aciaSigIrq d) (hold : old.Agrees) :
    new.Agrees := by
  obtain ⟨hcontrib, hmirrors⟩ := hold
  cases h with
  | kept dev contrib => exact ⟨contrib.trans (hcontrib.trans dev.want.symm), dev.mirrors hmirrors⟩
  | reevaluated _ agrees => exact agrees
  | forced signal =>
    obtain ⟨d, rfl⟩ := signal
    exact absurd rfl (hi d)
  | nmi _ new_eq => exact new_eq ▸ ⟨hcontrib, hmirrors⟩

theorem SlotChange.honest (h : SlotChange mode i old new events) (hold : old.Honest) : new.Honest := by
  obtain ⟨hcontrib, hmirrors⟩ := hold
  cases h with
  | kept dev contrib =>
    refine ⟨?_, dev.mirrors hmirrors⟩
    rw [contrib, dev.want, dev.kind]
    exact hcontrib
  | reevaluated _ agrees => exact agrees.honest
  | forced _ kind new_eq => exact new_eq ▸ ⟨.inr ⟨kind, rfl⟩, hmirrors⟩
  | nmi _ new_eq => exact new_eq ▸ ⟨hcontrib, hmirrors⟩

theorem SlotChange.setsNoFlag (h : SlotChange mode i old new events) (hmode : mode = .quirk)
    (hload : i.isLoad = false) : old.dev.SetsNoFlag new.dev := by
  cases h with
  | kept dev => exact dev.setsNoFlag
  | reevaluated _ _ flags => exact flags hmode hload
  | forced _ _ new_eq => exact new_eq ▸ (Device.SameInterrupts.refl old.dev).setsNoFlag
  | nmi _ new_eq => exact new_eq ▸ (Device.SameInterrupts.refl old.dev).setsNoFlag

theorem SlotChange.contrib_eq (h : SlotChange mode i old new events)
    (hi : ¬ MayWriteAggregator i ∨ (∃ d, i = .viaStep d) ∧ mode = .quirk) : new.contrib = old.contrib := by
  cases h with
  | kept _ contrib => exact contrib
  | reevaluated point =>
    obtain hnot | ⟨⟨d, rfl⟩, rfl⟩ := hi
    · exact absurd (mayWriteAggregator_of_reevaluatesIn point) hnot
    · cases point
  | forced signal =>
    obtain ⟨d, rfl⟩ := signal
    obtain hnot | ⟨⟨e, hstep⟩, -⟩ := hi
    · exact absurd trivial hnot
    · cases hstep
  | nmi _ new_eq => rw [new_eq]

theorem SlotChange.events_cases (h : SlotChange mode i old new events) :
    events = [] ∨ (∃ d b, i = .aciaStep d ∧ events = [.tx d b]) ∨ ∃ d, i = .aciaSigNmi d ∧ events = [.nmi d] := by
  cases h with
  | kept _ _ quiet => exact .inl quiet
  | reevaluated _ _ _ delivery => exact delivery.imp_right .inl
  | forced _ _ _ quiet => exact .inl quiet
  | nmi signal => exact .inr (.inr signal)

end

/-! ### The block -/

/-- Operation `i` takes state `s` to a state `t` by one of its ways to change its own device's slot. -/
structure ChangesOwnSlot (i : Instr) (s t : State) (old new : Slot) (events : List Event) : Prop where
  at_old : s.slotAt i.dev = some old
  slots : t.slots = s.slots.set i.dev.toNat new
  output : t.output = s.output ++ events
  change : SlotChange s.cfg.timerMode i old new events

section
variable {i : Instr} {s t : State} {old new : Slot} {events : List Event}

/-- A relation that no change of `i` breaks holds of every slot afterwards if it did before. -/
theorem ChangesOwnSlot.forall_slots {P : Slot → Prop} (h : ChangesOwnSlot i s t old new events)
    (hs : ∀ slot ∈ s.slots, P slot) (hP : SlotChange s.cfg.timerMode i old new events → P old → P new) :
    ∀ slot ∈ t.slots, P slot := by
  intro slot hmem
  rw [h.slots] at hmem
  obtain hold | rfl := List.mem_or_eq_of_mem_set hmem
  · exact hs slot hold
  · exact hP h.change (hs old (mem_of_slotAt h.at_old))

theorem onVia_changesOwnSlot {f : Via → Bool → Effect Via} (h : onVia i.dev s f = .next t)
    (hf : ∀ v c, SlotChange s.cfg.timerMode i ⟨.via v, c⟩ ⟨.via (f v c).dev, (f v c).contrib⟩ (f v c).events) :
    ∃ old new events, ChangesOwnSlot i s t old new events := by
  obtain ⟨v, c, hat, rfl⟩ := onVia_next h
  exact ⟨_, _, _, hat, rfl, rfl, hf v c⟩

theorem onAcia_changesOwnSlot {f : Acia → Bool → Effect Acia} (h : onAcia i.dev s f = .next t)
    (hf : ∀ a c, SlotChange s.cfg.timerMode i ⟨.acia a, c⟩ ⟨.acia (f a c).dev, (f a c).contrib⟩ (f a c).events) :
    ∃ old new events, ChangesOwnSlot i s t old new events := by
  obtain ⟨a, c, hat, rfl⟩ := onAcia_next h
  exact ⟨_, _, _, hat, rfl, rfl, hf a c⟩

theorem onPia_changesOwnSlot {f : Pia → Bool → Effect Pia} (h : onPia i.dev s f = .next t)
    (hf : ∀ p c, SlotChange s.cfg.timerMode i ⟨.pia p, c⟩ ⟨.pia (f p c).dev, (f p c).contrib⟩ (f p c).events) :
    ∃ old new events, ChangesOwnSlot i s t old new events := by
  obtain ⟨p, c, hat, rfl⟩ := onPia_next h
  exact ⟨_, _, _, hat, rfl, rfl, hf p c⟩

/-- A PIA line setter acts on a new level only (R260 to R263). -/
theorem onPia_line_changesOwnSlot {same : Pia → Prop} [∀ p, Decidable (same p)] {g : Pia → Pia}
    (h : onPia i.dev s (fun p c => if same p then .silent p c else piaReeval (g p)) = .next t)
    (hpoint : ReevaluatesIn s.cfg.timerMode i) : ∃ old new events, ChangesOwnSlot i s t old new events := by
  refine onPia_changesOwnSlot h fun p c => ?_
  split
  · exact .unchanged _
  · exact .ofPiaReeval hpoint

theorem execAciaRdData_changesOwnSlot {d : DevId} (h : exec (.aciaRdData d) s = .next t) :
    ∃ old new events, ChangesOwnSlot (.aciaRdData d) s t old new events := by
  refine onAcia_changesOwnSlot h fun a c => ?_
  split
  · exact .ofAciaReeval trivial (.inl rfl)
  · exact .unchanged _

theorem execAciaWrData_changesOwnSlot {d : DevId} {x : Byte} (h : exec (.aciaWrData d x) s = .next t) :
    ∃ old new events, ChangesOwnSlot (.aciaWrData d x) s t old new events := by
  refine onAcia_changesOwnSlot h fun a c => ?_
  split
  · exact .ofAciaReeval trivial (.inl rfl)
  · split
    · exact .ofAciaReeval trivial (.inl rfl)
    · exact .unchanged _

theorem execAciaStep_changesOwnSlot {d : DevId} (h : exec (.aciaStep d) s = .next t) :
    ∃ old new events, ChangesOwnSlot (.aciaStep d) s t old new events := by
  refine onAcia_changesOwnSlot h fun a c => ?_
  split
  · exact .unchanged _
  · split
    · exact .ofAciaReeval trivial ((emitTx_cases d a.sinkAttached a.txHold).imp_right fun htx => ⟨d, _, rfl, htx⟩)
    · exact .kept ⟨rfl, rfl, id, rfl⟩ rfl rfl

theorem execAciaRxb_changesOwnSlot {d : DevId} {b : Byte} (h : exec (.aciaRxb d b) s = .next t) :
    ∃ old new events, ChangesOwnSlot (.aciaRxb d b) s t old new events := by
  refine onAcia_changesOwnSlot h fun a c => ?_
  split
  · exact .unchanged _
  · split
    · exact .kept (sameInterrupts_overrun a) rfl rfl
    · exact .ofAciaReeval trivial (.inl rfl)

/-- Performing any operation changes its own device's slot in one of these ways. -/
theorem exec_changesOwnSlot (h : exec i s = .next t) : ∃ old new events, ChangesOwnSlot i s t old new events := by
  cases i
  case anySigReset d =>
    obtain ⟨slot, hat, rfl⟩ := onAny_next h
    exact ⟨_, _, _, hat, rfl, rfl, .reevaluated trivial ⟨(want_deviceReset _).symm, mirrorsWant_deviceReset _⟩
      (fun _ _ => setsNoFlag_deviceReset _) (.inl rfl)⟩
  case anySigOther d =>
    obtain ⟨slot, hat, rfl⟩ := onAny_next h
    exact ⟨_, _, _, hat, rfl, rfl, .unchanged slot⟩
  case anySave d =>
    obtain ⟨slot, hat, rfl⟩ := onAny_next h
    exact ⟨_, _, _, hat, rfl, rfl, .unchanged slot⟩
  case viaLoad d n =>
    obtain ⟨r, -, hvia⟩ := execViaLoad_next h
    exact onVia_changesOwnSlot hvia fun _ _ => .ofViaReeval trivial fun _ hload => nomatch hload
  case aciaLoad d n =>
    obtain ⟨r, -, hacia⟩ := execAciaLoad_next h
    exact onAcia_changesOwnSlot hacia fun _ _ => .ofAciaReeval trivial (.inl rfl)
  case piaLoad d n =>
    obtain ⟨r, -, hpia⟩ := execPiaLoad_next h
    exact onPia_changesOwnSlot hpia fun _ _ => .ofPiaReeval trivial
  case viaRdT1cl | viaRdT2cl | viaWrT1ch | viaWrT2ch =>
    exact onVia_changesOwnSlot h fun _ _ => .ofViaReeval trivial fun _ _ _ _ => getLsbD_of_writeBit_false
  case viaWrIfr =>
    exact onVia_changesOwnSlot h fun _ _ => .ofViaReeval trivial fun _ _ _ hk => getLsbD_of_ifrAfterWrite hk
  case viaWrIer => exact onVia_changesOwnSlot h fun _ _ => .ofViaReeval trivial fun _ _ _ _ => id
  case viaStep d => exact onVia_changesOwnSlot h fun v _ => .ofTickVia d v
  case aciaRdData => exact execAciaRdData_changesOwnSlot h
  case aciaWrData => exact execAciaWrData_changesOwnSlot h
  case aciaWrCmd => exact onAcia_changesOwnSlot h fun _ _ => .ofAciaReeval trivial (.inl rfl)
  case aciaStep => exact execAciaStep_changesOwnSlot h
  case aciaRxb => exact execAciaRxb_changesOwnSlot h
  case aciaSigIrq d => exact onAcia_changesOwnSlot h fun _ _ => .forced ⟨d, rfl⟩ rfl rfl rfl
  case aciaSigNmi d => exact onAcia_changesOwnSlot h fun _ _ => .nmi ⟨d, rfl, rfl⟩ rfl
  case aciaRdStat | aciaRdCtrl | aciaRdTest | aciaWrCtrl | aciaWrTest | aciaSink =>
    exact onAcia_changesOwnSlot h fun _ _ => .kept ⟨rfl, rfl, id, rfl⟩ rfl rfl
  case piaWrCra | piaWrCrb => exact onPia_changesOwnSlot h fun _ _ => .ofPiaReeval trivial
  case piaLineCa1 | piaLineCa2 | piaLineCb1 | piaLineCb2 => exact onPia_line_changesOwnSlot h trivial
  case piaRdPb | piaRdPa | piaRdCrb | piaRdCra | piaWrPb | piaWrPa | piaStep | piaSigNmi | piaSigIrq =>
    exact onPia_changesOwnSlot h fun _ _ => .kept ⟨rfl, rfl, id, rfl⟩ rfl rfl
  all_goals exact onVia_changesOwnSlot h fun _ _ => .kept ⟨rfl, rfl, id, rfl⟩ rfl rfl

end

end Sys2Proof.Machine
end

section
/-! What every operation keeps of the interrupt state (spec 60_exceptions.md sections 1 and 2), each from the ways an
operation can change its own device's slot. -/

namespace Sys2Proof.Machine
open Sys2Proof.Statements

variable {i : Instr} {s t : State} {d : DevId}

/-! ### The line -/

/-- Settles O46, by the slots an `any` over the list finds. -/
theorem irqLineIsTheOrOfContributions : Obligations.IrqLineIsTheOrOfContributions := by
  intro s
  constructor
  · intro hline
    obtain ⟨slot, hmem, hcontrib⟩ := List.any_eq_true.mp hline
    obtain ⟨n, hn⟩ := List.getElem?_of_mem hmem
    exact ⟨n, slot, hn, hcontrib⟩
  · rintro ⟨n, slot, hn, hcontrib⟩
    exact List.any_eq_true.mpr ⟨slot, List.mem_of_getElem? hn, hcontrib⟩

/-! ### Contributions and wants (R328) -/

theorem exec_honest (hs : s.Honest) (h : exec i s = .next t) : t.Honest := by
  obtain ⟨old, new, events, hchanges⟩ := exec_changesOwnSlot h
  exact hchanges.forall_slots hs SlotChange.honest

theorem step_honest (hs : s.Honest) (h : step s = .next t) : t.Honest := by
  obtain ⟨-, ⟨-, rfl⟩ | ⟨w, i, -, -, hexec⟩⟩ := step_next h
  · exact hs
  · have hadvance : s.advance.Honest := hs
    exact exec_honest hadvance hexec

/-- Settles O48: no way of changing a slot breaks the tie, and of them only the forced one, which is `SIG IRQ`'s, makes
a contribution differ from its want. -/
theorem everyStepKeepsContributionsHonest : Obligations.EveryStepKeepsContributionsHonest := by
  refine ⟨fun s t => step_honest, fun i s t hs hi h => ?_⟩
  obtain ⟨old, new, events, hchanges⟩ := exec_changesOwnSlot h
  exact hchanges.forall_slots (P := Slot.Agrees) hs fun hchange => hchange.agrees hi

/-! ### Flags in `quirk` mode -/

/-- In `quirk` mode no operation but a load sets a flag of any device (R381). -/
theorem exec_setsNoFlag {e : DevId} {slot slot' : Slot} (hmode : s.cfg.timerMode = .quirk) (hload : i.isLoad = false)
    (h : exec i s = .next t) (hs : s.slotAt e = some slot) (ht : t.slotAt e = some slot') :
    slot.dev.SetsNoFlag slot'.dev := by
  by_cases he : e = i.dev
  · subst he
    obtain ⟨old, new, events, hchanges⟩ := exec_changesOwnSlot h
    obtain rfl : old = slot := Option.some.inj (hchanges.at_old.symm.trans hs)
    obtain rfl : new = slot' := Option.some.inj ((slotAt_of_slots_eq_set hs hchanges.slots).symm.trans ht)
    exact hchanges.change.setsNoFlag hmode hload
  · rw [(exec_touchesOwnSlot h).slotAt_other he, hs] at ht
    obtain rfl : slot = slot' := Option.some.inj ht
    exact (Device.SameInterrupts.refl slot.dev).setsNoFlag

/-- Settles O24: the device's own operations re-evaluate or keep its flags, and no other device changes. -/
theorem quirkModeFlagsOnlyLoadsCanSet : Obligations.QuirkModeFlagsOnlyLoadsCanSet := by
  intro i s t e v v' c c' hmode hload h hs ht
  exact exec_setsNoFlag hmode hload h hs ht

/-! ### Contributions and events -/

/-- Replacing a slot by one that agrees with it in what `f` reads changes nothing that `f` reads of the block. -/
theorem map_set_of_slotAt {α : Type} {f : Slot → α} {old new : Slot} (hat : s.slotAt d = some old)
    (hf : f new = f old) : (s.slots.set d.toNat new).map f = s.slots.map f := by
  obtain ⟨hlt, rfl⟩ := List.getElem?_eq_some_iff.mp hat
  rw [List.map_set, hf, ← List.map_set, List.set_getElem_self]

/-- Settles O54: only a change at a re-evaluation point writes a contribution anew. -/
theorem aggregatorWrittenOnlyAtReevaluationPoints : Obligations.AggregatorWrittenOnlyAtReevaluationPoints := by
  intro i s t h hi
  obtain ⟨old, new, events, hchanges⟩ := exec_changesOwnSlot h
  rw [hchanges.slots]
  exact map_set_of_slotAt hchanges.at_old (hchanges.change.contrib_eq hi)

/-- Settles O56, by the events each way of changing a slot emits. -/
theorem eventsComeOnlyFromTicksAndNmi : Obligations.EventsComeOnlyFromTicksAndNmi := by
  intro i s t h
  obtain ⟨old, new, events, hchanges⟩ := exec_changesOwnSlot h
  rw [hchanges.output]
  obtain rfl | ⟨d, b, hi, rfl⟩ | ⟨d, hi, rfl⟩ := hchanges.change.events_cases
  · exact .inl (List.append_nil _)
  · exact .inr (.inl ⟨d, b, hi, rfl⟩)
  · exact .inr (.inr ⟨d, hi, rfl⟩)

/-! ### Reachable states -/

theorem TouchesOwnSlot.shaped (h : TouchesOwnSlot d s t) (hs : s.Shaped) : t.Shaped := by
  obtain ⟨old, new, hat, hkind, hslots⟩ := h.slot
  rw [State.Shaped, hslots, h.cfg, map_set_of_slotAt hat hkind]
  exact hs

theorem shaped_powerOn (c : Config) : (State.powerOn c).Shaped := by
  simp [State.Shaped, Config.kinds]

/-- Power-on leaves a device at its reset values (R371, R372). -/
theorem reset_devicePowerOn (dc : DeviceConfig) : (devicePowerOn dc).reset = devicePowerOn dc := by
  unfold devicePowerOn
  cases dc.kind <;> rfl

theorem honest_powerOn (c : Config) : (State.powerOn c).Honest := by
  intro slot hmem
  rw [powerOn_slots] at hmem
  obtain ⟨dc, -, rfl⟩ := List.mem_map.mp hmem
  rw [← reset_devicePowerOn]
  exact Slot.Agrees.honest ⟨(want_deviceReset _).symm, mirrorsWant_deviceReset _⟩

/-- Settles O51, by induction on how the state is reached: operations keep all three, and what the host replaces is
read by none of them. -/
theorem reachableStatesKeepTheInvariants : Obligations.ReachableStatesKeepTheInvariants := by
  intro c s hreach
  induction hreach with
  | start => exact ⟨rfl, shaped_powerOn c, honest_powerOn c⟩
  | operation i s t _ h ih =>
    obtain ⟨hcfg, hshaped, hhonest⟩ := ih
    have htouch : TouchesOwnSlot i.dev s t := exec_touchesOwnSlot h
    exact ⟨htouch.cfg.trans hcfg, htouch.shaped hshaped, exec_honest hhonest h⟩
  | host s trace records _ ih => exact ih

end Sys2Proof.Machine
end

section
/-! Every operation completes (spec 60_exceptions.md R340): a well-formed operation finds a device of a kind that has
it, and an operation of a kind answers on every device of that kind. -/

namespace Sys2Proof.Machine
open Sys2Proof.Statements

variable {i : Instr} {s : State} {d : DevId} {dev : Device} {c : Bool}

theorem onAny_completes {slot : Slot} (hat : s.slotAt d = some slot) (f : Slot → State) :
    ∃ t, onAny d s f = .next t :=
  ⟨_, onAny_eq hat f⟩

theorem onVia_completes (hat : s.slotAt d = some ⟨dev, c⟩) (hkind : dev.kind = .via) (f : Via → Bool → Effect Via) :
    ∃ t, onVia d s f = .next t := by
  cases dev with
  | via v => exact ⟨_, onVia_eq hat f⟩
  | acia a => cases hkind
  | pia p => cases hkind

theorem onAcia_completes (hat : s.slotAt d = some ⟨dev, c⟩) (hkind : dev.kind = .acia)
    (f : Acia → Bool → Effect Acia) : ∃ t, onAcia d s f = .next t := by
  cases dev with
  | via v => cases hkind
  | acia a => exact ⟨_, onAcia_eq hat f⟩
  | pia p => cases hkind

theorem onPia_completes (hat : s.slotAt d = some ⟨dev, c⟩) (hkind : dev.kind = .pia) (f : Pia → Bool → Effect Pia) :
    ∃ t, onPia d s f = .next t := by
  cases dev with
  | via v => cases hkind
  | acia a => cases hkind
  | pia p => exact ⟨_, onPia_eq hat f⟩

/-- A well-formed operation finds its device, of a kind that has it, in a block of the configured shape. -/
theorem exists_slotAt_of_wellFormed (hshaped : s.Shaped) (hwf : i.WellFormed s.cfg.kinds) :
    ∃ dev c, s.slotAt i.dev = some ⟨dev, c⟩ ∧ i.format.admits dev.kind = true := by
  obtain ⟨k, hk, hadmits⟩ := wellFormed_iff.mp hwf
  rw [← hshaped, List.getElem?_map, Option.map_eq_some_iff] at hk
  obtain ⟨⟨dev, c⟩, hat, rfl⟩ := hk
  exact ⟨dev, c, hat, hadmits⟩

theorem execViaLoad_completes {n : Byte} {r : ViaRecord} (hrec : s.records[n.toNat]? = some (.via r))
    (hat : s.slotAt d = some ⟨dev, c⟩) (hkind : dev.kind = .via) : ∃ t, execViaLoad d n s = .next t := by
  rw [execViaLoad, hrec]
  exact onVia_completes hat hkind _

theorem execAciaLoad_completes {n : Byte} {r : AciaRecord} (hrec : s.records[n.toNat]? = some (.acia r))
    (hat : s.slotAt d = some ⟨dev, c⟩) (hkind : dev.kind = .acia) : ∃ t, execAciaLoad d n s = .next t := by
  rw [execAciaLoad, hrec]
  exact onAcia_completes hat hkind _

theorem execPiaLoad_completes {n : Byte} {r : Pia} (hrec : s.records[n.toNat]? = some (.pia r))
    (hat : s.slotAt d = some ⟨dev, c⟩) (hkind : dev.kind = .pia) : ∃ t, execPiaLoad d n s = .next t := by
  rw [execPiaLoad, hrec]
  exact onPia_completes hat hkind _

/-- An operation completes on a device of a kind that has it; a load needs its record too. -/
theorem exec_completes (hat : s.slotAt i.dev = some ⟨dev, c⟩) (hadmits : i.format.admits dev.kind = true)
    (hready : RecordReady s i) : ∃ t, exec i s = .next t := by
  cases i
  case viaLoad =>
    obtain ⟨r, hrec⟩ := hready
    exact execViaLoad_completes hrec hat (via_admits_iff.mp hadmits)
  case aciaLoad =>
    obtain ⟨r, hrec⟩ := hready
    exact execAciaLoad_completes hrec hat (acia_admits_iff.mp hadmits)
  case piaLoad =>
    obtain ⟨r, hrec⟩ := hready
    exact execPiaLoad_completes hrec hat (pia_admits_iff.mp hadmits)
  case anySigReset | anySigOther | anySave => exact onAny_completes hat _
  case aciaRdData | aciaRdStat | aciaRdCtrl | aciaRdTest | aciaWrData | aciaWrCmd | aciaWrCtrl | aciaWrTest |
      aciaStep | aciaRxb | aciaSigNmi | aciaSigIrq | aciaSink =>
    exact onAcia_completes hat (acia_admits_iff.mp hadmits) _
  case piaRdPb | piaRdPa | piaRdCrb | piaRdCra | piaWrPb | piaWrPa | piaWrCrb | piaWrCra | piaLineCa1 | piaLineCa2 |
      piaLineCb1 | piaLineCb2 | piaStep | piaSigNmi | piaSigIrq =>
    exact onPia_completes hat (pia_admits_iff.mp hadmits) _
  all_goals exact onVia_completes hat (via_admits_iff.mp hadmits) _

theorem exec_completes_of_wellFormed (hshaped : s.Shaped) (hwf : i.WellFormed s.cfg.kinds)
    (hready : RecordReady s i) : ∃ t, exec i s = .next t := by
  obtain ⟨dev, c, hat, hadmits⟩ := exists_slotAt_of_wellFormed hshaped hwf
  exact exec_completes hat hadmits hready

theorem wellFormed_of_decode {kinds : List Kind} {w : HopWord} (h : decode kinds w = .ok i) : i.WellFormed kinds := by
  obtain ⟨hwf, -, -⟩ := decoded_fits_row h
  exact hwf

/-- A step at a word that decodes performs its operation (R122). -/
theorem step_of_decode_ok {w : HopWord} (hv : s.cfg.valid = true) (hf : s.fetch = some w)
    (hd : decode s.cfg.kinds w = .ok i) : step s = exec i s.advance := by
  simp only [step, hv, hf, hd, if_true]

/-- Settles O53: the operation of a word that decodes is well-formed, and advancing the trace keeps shape and
records. -/
theorem everyDecodedOperationCompletes : Obligations.EveryDecodedOperationCompletes := by
  refine ⟨fun i s => exec_completes_of_wellFormed, fun s w i hshaped hv hf hd hready => ?_⟩
  have hadvance : s.advance.Shaped := hshaped
  rw [step_of_decode_ok hv hf hd]
  exact exec_completes_of_wellFormed hadvance (wellFormed_of_decode hd) hready

end Sys2Proof.Machine
end

section
/-! Ticks of different devices (spec 60_exceptions.md R334): a tick reads its own device's slot and the configuration,
and writes that slot, so a tick of another device neither sees nor disturbs it. -/

namespace Sys2Proof.Machine
open Sys2Proof.Statements

variable {i j : Instr} {s t u : State} {d : DevId}

/-- In every state with the configuration of `s` and with its slot at `i`'s device, `i` completes, and writes `new` in
that slot and no other. -/
def WritesLocally (i : Instr) (s : State) (new : Slot) : Prop :=
  ∀ s' : State, s'.cfg = s.cfg → s'.slotAt i.dev = s.slotAt i.dev →
    ∃ t', exec i s' = .next t' ∧ t'.cfg = s'.cfg ∧ t'.slots = s'.slots.set i.dev.toNat new

theorem WritesLocally.next {new : Slot} (h : WritesLocally i s new) (ht : exec i s = .next t) :
    t.cfg = s.cfg ∧ t.slots = s.slots.set i.dev.toNat new := by
  obtain ⟨t', ht', hcfg, hslots⟩ := h s rfl rfl
  rw [ht] at ht'
  cases ht'
  exact ⟨hcfg, hslots⟩

/-- Of the ticks only the VIA's reads the configuration, for its timer mode. -/
theorem tick_writesLocally (hi : IsTick i) (h : exec i s = .next t) : ∃ new, WritesLocally i s new := by
  cases i
  case viaStep d =>
    obtain ⟨v, c, hat, -⟩ := onVia_next h
    refine ⟨⟨.via (tickVia s.cfg.timerMode v c).1, (tickVia s.cfg.timerMode v c).2⟩, fun s' hcfg hslot => ?_⟩
    rw [← hcfg]
    exact ⟨_, exec_viaStep_eq (hslot.trans hat), rfl, rfl⟩
  case aciaStep d =>
    obtain ⟨a, c, hat, -⟩ := onAcia_next h
    exact ⟨_, fun s' _ hslot => ⟨_, onAcia_eq (hslot.trans hat) _, rfl, rfl⟩⟩
  case piaStep d =>
    obtain ⟨p, c, hat, -⟩ := onPia_next h
    exact ⟨_, fun s' _ hslot => ⟨_, onPia_eq (hslot.trans hat) _, rfl, rfl⟩⟩
  all_goals cases hi

/-- Settles O57: each tick writes the same slot in either order, and writes of different slots commute. -/
theorem ticksOfDifferentDevicesCommute : Obligations.TicksOfDifferentDevicesCommute := by
  intro i j s t u hi hj hdev ht hu
  obtain ⟨newI, hlocalI⟩ := tick_writesLocally hi ht
  obtain ⟨newJ, hlocalJ⟩ := tick_writesLocally hj hu
  obtain ⟨htcfg, htslots⟩ := hlocalI.next ht
  obtain ⟨-, huslots⟩ := hlocalJ.next hu
  have hseen : s.slotAt j.dev = t.slotAt j.dev := ((exec_touchesOwnSlot ht).slotAt_other hdev.symm).symm
  obtain ⟨t', ht', htcfg', htslots'⟩ := hlocalJ s htcfg.symm hseen
  obtain ⟨u', hu', -, huslots'⟩ := hlocalI t' htcfg' ((exec_touchesOwnSlot ht').slotAt_other hdev)
  have hindex : i.dev.toNat ≠ j.dev.toNat := fun heq => hdev (BitVec.eq_of_toNat_eq heq)
  refine ⟨t', u', ht', hu', ?_⟩
  calc u'.slots = (s.slots.set j.dev.toNat newJ).set i.dev.toNat newI := by rw [huslots', htslots']
    _ = (s.slots.set i.dev.toNat newI).set j.dev.toNat newJ := List.set_comm newJ newI hindex.symm
    _ = u.slots := by rw [huslots, htslots]

end Sys2Proof.Machine
end

section
/-! Power-on and reset (spec 70_reset_and_hazards.md R371 to R373): a device's slot at power-on, and the whole next
state of `SIG RESET`. -/

namespace Sys2Proof.Machine
open Sys2Proof.Statements

variable {c : Config} {dc : DeviceConfig} {s : State} {d : DevId}

/-! ### Power-on -/

/-- At power-on every configured device is in its slot, at its power-on values, with no contribution (R372). -/
theorem slotAt_powerOn (hdc : c.devices[d.toNat]? = some dc) :
    (State.powerOn c).slotAt d = some ⟨devicePowerOn dc, false⟩ := by
  rw [State.slotAt, powerOn_slots, List.getElem?_map, hdc, Option.map_some]

theorem irqLine_powerOn (c : Config) : (State.powerOn c).irqLine = false := by
  refine List.any_eq_false.mpr fun slot hmem => ?_
  obtain ⟨dc, -, rfl⟩ := List.mem_map.mp hmem
  exact Bool.false_ne_true

theorem devicePowerOn_of_via (hkind : dc.kind = .via) :
    devicePowerOn dc = .via { viaResetRecord with paIn := dc.pinInitA, pbIn := dc.pinInitB } := by
  rw [devicePowerOn, hkind]

theorem devicePowerOn_of_acia (hkind : dc.kind = .acia) :
    devicePowerOn dc = .acia { aciaResetRecord with sinkAttached := false } := by
  rw [devicePowerOn, hkind]

theorem devicePowerOn_of_pia (hkind : dc.kind = .pia) : devicePowerOn dc = .pia piaReset := by
  rw [devicePowerOn, hkind]

/-- `slotAt_powerOn` with the power-on values worked out. -/
theorem slotAt_powerOn_of_device {dev : Device} (hdc : c.devices[d.toNat]? = some dc) (hdev : devicePowerOn dc = dev) :
    (State.powerOn c).slotAt d = some ⟨dev, false⟩ :=
  hdev ▸ slotAt_powerOn hdc

/-- Settles O8, by the device each kind has at power-on. -/
theorem powerOnState : Obligations.PowerOnState := by
  intro c
  refine ⟨List.length_map _, rfl, irqLine_powerOn c, fun d dc hdc => ⟨fun hvia => ?_, fun hacia => ?_, fun hpia => ?_⟩⟩
  · exact slotAt_powerOn_of_device hdc (devicePowerOn_of_via hvia)
  · exact slotAt_powerOn_of_device hdc (devicePowerOn_of_acia hacia)
  · exact slotAt_powerOn_of_device hdc (devicePowerOn_of_pia hpia)

/-! ### Reset -/

/-- `SIG RESET` is accepted by a device of any kind (R290). -/
theorem decodes_anySigReset (k : Kind) : Decodes k 0x3 0x0 (fun d _ => .anySigReset d) :=
  fun _ _ _ hk => decode_packWord_at hk _ _ _

/-- `SIG RESET` resets its device, takes its contribution to 0, and writes nothing else of the block (R371). -/
theorem exec_anySigReset {slot : Slot} (hat : s.slotAt d = some slot) :
    exec (.anySigReset d) s =
      .next { s with slots := s.slots.set d.toNat ⟨slot.dev.reset, false⟩, ret := .nothing } :=
  (onAny_eq hat _).trans (congrArg Host.Outcome.next (commit_of_no_events s d _ .nothing))

/-- Settles O9: the whole next state of a reset, at the reset values of each kind. -/
theorem resetSignalRestoresResetValues : Obligations.ResetSignalRestoresResetValues :=
  ⟨decodes_anySigReset, fun _ _ _ _ hat => exec_anySigReset hat, fun _ _ _ _ hat => exec_anySigReset hat,
    fun _ _ _ _ hat => exec_anySigReset hat⟩

/-- A reset reads only the fields it keeps: the pin levels and the sink attachment (R371, R61). -/
@[simp] theorem reset_reset (dev : Device) : dev.reset.reset = dev.reset := by
  cases dev <;> rfl

/-- `SIG RESET` at a slot that holds the reset values already changes only what was returned. -/
theorem exec_anySigReset_of_reset {dev : Device} (hat : s.slotAt d = some ⟨dev, false⟩) (hreset : dev.reset = dev) :
    exec (.anySigReset d) s = .next { s with ret := .nothing } := by
  refine (onAny_eq hat _).trans ?_
  rw [hreset, commit_same_quiet hat]

/-- Settles O10: the first reset leaves the reset values in the slot, and nothing returned. -/
theorem resetIsIdempotent : Obligations.ResetIsIdempotent := by
  intro s t d h
  obtain ⟨slot, hat, rfl⟩ := onAny_next h
  exact exec_anySigReset_of_reset (slotAt_commit_self s d _ .nothing [] hat) (reset_reset slot.dev)

end Sys2Proof.Machine
end

section
/-! Runs of ticks in `quirk` mode (spec 70_reset_and_hazards.md R381, R382): the counters fall to 0 and stay there,
without a flag and without a change of the line. -/

namespace Sys2Proof.Machine

variable {s : State} {d : DevId} {v : Via} {c : Bool}

/-- The VIA with both counters less by `n`, no lower than 0. -/
def Via.countedDown (v : Via) (n : Nat) : Via :=
  { v with t1c := BitVec.ofNat 16 (v.t1c.toNat - n), t2c := BitVec.ofNat 16 (v.t2c.toNat - n) }

@[simp] theorem countedDown_zero (v : Via) : v.countedDown 0 = v := by
  simp only [Via.countedDown, Nat.sub_zero, BitVec.ofNat_toNat, BitVec.setWidth_eq]

/-- One more tick of a counter that fell by `n` and stops at 0. -/
theorem counter_tick_after (x : Count16) (n : Nat) :
    (if BitVec.ofNat 16 (x.toNat - n) = 0 then 0 else BitVec.ofNat 16 (x.toNat - n) - 1) =
      BitVec.ofNat 16 (x.toNat - (n + 1)) := by
  split <;> bv_omega

theorem tickVia_quirk_countedDown (v : Via) (c : Bool) (n : Nat) :
    tickVia .quirk (v.countedDown n) c = (v.countedDown (n + 1), c) := by
  simp only [tickVia_quirk, Via.countedDown, counter_tick_after]

/-- The line is read from the contributions alone (R322). -/
theorem irqLine_eq_any_contribs (s : State) : s.irqLine = (s.slots.map Slot.contrib).any id := by
  rw [State.irqLine, List.any_map, Function.id_comp]

/-- Writing a device under the contribution it had leaves the line as it is. -/
theorem irqLine_commit_same_contrib {old new : Device} (hat : s.slotAt d = some ⟨old, c⟩) (ret : Returned)
    (events : List Event) : (s.commit d ⟨new, c⟩ ret events).irqLine = s.irqLine := by
  have hcontribs : (s.slots.set d.toNat ⟨new, c⟩).map Slot.contrib = s.slots.map Slot.contrib :=
    map_set_of_slotAt hat rfl
  rw [irqLine_eq_any_contribs, commit_slots, hcontribs, ← irqLine_eq_any_contribs]

/-- A run of ticks in `quirk` mode counts down, and keeps contribution and line (R381, R382). -/
theorem runOps_viaStep_quirk (hmode : s.cfg.timerMode = .quirk) (hat : s.slotAt d = some ⟨.via v, c⟩) (n : Nat) :
    ∃ t, runOps (List.replicate n (.viaStep d)) s = .next t ∧
      t.slotAt d = some ⟨.via (v.countedDown n), c⟩ ∧ t.irqLine = s.irqLine := by
  induction n with
  | zero => exact ⟨s, rfl, by rwa [countedDown_zero], rfl⟩
  | succ n ih =>
    obtain ⟨t, hrun, ht, hline⟩ := ih
    have htick := exec_viaStep_eq ht
    rw [runOps_cfg hrun, hmode, tickVia_quirk_countedDown] at htick
    exact ⟨_, runOps_replicate_succ hrun htick, slotAt_commit_self t d _ .nothing [] ht,
      (irqLine_commit_same_contrib ht .nothing []).trans hline⟩

/-- Settles O22, by induction on the number of ticks. -/
theorem viaCountersReachZeroAndStay : Obligations.ViaCountersReachZeroAndStay := by
  intro n s d v c hmode hat
  exact runOps_viaStep_quirk hmode hat n

end Sys2Proof.Machine
end

section
/-! What a step is at a word that decodes, and what every step keeps of the block's shape (spec 00_scope.md R6;
10_state.md R21, R26; 30_encoding.md R122). -/

namespace Sys2Proof.Machine

variable {s t : State}

theorem fetch_of_trace_cons {w : HopWord} {rest : List HopWord} (htrace : s.trace = w :: rest) :
    s.fetch = some w := by
  rw [State.fetch, htrace, List.head?_cons]

theorem advance_of_trace_cons {w : HopWord} {rest : List HopWord} (htrace : s.trace = w :: rest) :
    s.advance = { s with trace := rest, index := s.index + 1 } := by
  rw [State.advance, htrace, List.tail_cons]

/-- Settles O5, by the branch of `step` that a decoded word takes, at the head of the trace. -/
theorem stepRunsDecodedOperation : Obligations.StepRunsDecodedOperation := by
  intro s w rest i hv htrace hd
  rw [← advance_of_trace_cons htrace]
  exact step_of_decode_ok hv (fetch_of_trace_cons htrace) hd

/-- Settles O47: a step idles, or performs one operation on the advanced state, which writes a device of the same kind
over one slot. -/
theorem everyStepKeepsConfigurationAndShape : Obligations.EveryStepKeepsConfigurationAndShape := by
  intro s t hshaped h
  obtain ⟨-, ⟨-, rfl⟩ | ⟨w, i, -, -, hexec⟩⟩ := step_next h
  · exact ⟨rfl, hshaped⟩
  · have hadvance : s.advance.Shaped := hshaped
    have htouch : TouchesOwnSlot i.dev s.advance t := exec_touchesOwnSlot hexec
    exact ⟨htouch.cfg, htouch.shaped hadvance⟩

theorem settled_powerOn (c : Config) : (State.powerOn c).Settled := by
  intro slot hmem
  rw [powerOn_slots] at hmem
  obtain ⟨dc, -, rfl⟩ := List.mem_map.mp hmem
  rw [← reset_devicePowerOn]
  exact settled_deviceReset _

/-- Settles O50: the reset state is a power-on state, and a device at power-on is at its reset values. -/
theorem invariantsHoldAtPowerOn : Obligations.InvariantsHoldAtPowerOn := by
  have hall (c : Config) : (State.powerOn c).Shaped ∧ (State.powerOn c).Honest ∧ (State.powerOn c).Settled :=
    ⟨shaped_powerOn c, honest_powerOn c, settled_powerOn c⟩
  exact ⟨hall, hall Config.reference⟩

end Sys2Proof.Machine
end

section
/-! The record table (spec 43_signals_persistence.md R300, R304 to R306; 93_implementation_defined.md U9): the loads
that are refused, whatever the device. -/

namespace Sys2Proof.Machine

variable {s : State} {d : DevId} {n : Byte}

/-- No load answers at an index the record table does not have (log entry 11). -/
theorem exec_load_of_no_record (k : Kind) (hrec : s.records[n.toNat]? = none) :
    exec (decodeLoad k d n) s = .refused .noRecord := by
  cases k with
  | via =>
    change execViaLoad d n s = _
    rw [execViaLoad, hrec]
  | acia =>
    change execAciaLoad d n s = _
    rw [execAciaLoad, hrec]
  | pia =>
    change execPiaLoad d n s = _
    rw [execPiaLoad, hrec]

/-- No load converts a record of another kind (R304 to R306, U9). -/
theorem exec_load_of_other_kind {k : Kind} {r : Record} (hrec : s.records[n.toNat]? = some r) (hkind : r.kind ≠ k) :
    exec (decodeLoad k d n) s = .refused .recordOfAnotherKind := by
  cases k with
  | via =>
    change execViaLoad d n s = _
    rw [execViaLoad, hrec]
    cases r with
    | via _ => exact absurd rfl hkind
    | acia _ | pia _ => rfl
  | acia =>
    change execAciaLoad d n s = _
    rw [execAciaLoad, hrec]
    cases r with
    | acia _ => exact absurd rfl hkind
    | via _ | pia _ => rfl
  | pia =>
    change execPiaLoad d n s = _
    rw [execPiaLoad, hrec]
    cases r with
    | pia _ => exact absurd rfl hkind
    | via _ | acia _ => rfl

/-- Settles O44, by the whole next state of a save and the two refusals of a load of any kind. -/
theorem recordTableOfSavesAndLoads : Obligations.RecordTableOfSavesAndLoads := by
  refine ⟨fun s d slot hat => ⟨_, exec_anySave hat, rfl, rfl⟩, fun s d n => ⟨fun hrec => ?_, fun r hrec => ?_⟩⟩
  · exact ⟨exec_load_of_no_record .via hrec, exec_load_of_no_record .acia hrec, exec_load_of_no_record .pia hrec⟩
  · exact ⟨exec_load_of_other_kind (k := .via) hrec, exec_load_of_other_kind (k := .acia) hrec,
      exec_load_of_other_kind (k := .pia) hrec⟩

end Sys2Proof.Machine
end

section
/-! The sample words of 95_test_vectors.md B1, each taken apart into device, kind code, argument and data. -/

namespace Sys2Proof.Machine

theorem decode_packWord_of_no_device {kinds : List Kind} {d : DevId} (hk : kinds[d.toNat]? = none)
    (op arg : BitVec 4) (x : Byte) : decode kinds (packWord ⟨d, op, arg, x⟩) = .error .noSuchDevice := by
  rw [decode_packWord]
  simp only [decodeFields, hk]

/-- Settles O1: the kinds of devices 0 to 2 and the absence of device 3, then the encoding each word is one of. -/
theorem sampleWordsDecode : Obligations.SampleWordsDecode := by
  have hvia : Config.reference.kinds[(0 : DevId).toNat]? = some .via := rfl
  have hacia : Config.reference.kinds[(1 : DevId).toNat]? = some .acia := rfl
  have hpia : Config.reference.kinds[(2 : DevId).toNat]? = some .pia := rfl
  have hnone : Config.reference.kinds[(3 : DevId).toNat]? = none := rfl
  refine ⟨?_, ?_, ?_, ?_, ?_, ?_, ?_, ?_, ?_, ?_, ?_⟩
  · exact decodes_viaRead .ifr _ 0 0x00 hvia
  · exact decodes_viaRead .t1cl _ 0 0xFF hvia
  · exact decodes_viaWrite .ier _ 0 0xC0 hvia
  · exact decodes_aciaRead 1#2 1#2 _ 1 0x00 hacia
  · exact decodes_aciaWrite 3#2 2#2 _ 1 0x24 hacia
  · exact decodes_piaRead 1#2 3#2 _ 2 0x00 hpia
  · exact decode_packWord_at hpia 0x5 0x2 0x01
  · exact decode_packWord_at hvia 0x6 0x1 0x55
  · exact decodes_load .pia 0x0 _ 2 0x03 hpia
  · exact decode_packWord_of_no_device hnone 0x0 0x0 0x00
  · exact decode_packWord_at hacia 0x3 0x3 0x00

end Sys2Proof.Machine
end
